-- ==== Sys2Proof/Word.lean ====
section
/-! DEFINITION. The words of the block: 32-bit register and port words (R5 `XLEN`), bytes of pixel memory, and the
exact numbers of R6: a frequency is a rational, a time a natural count of nanoseconds, an amplitude a rational or the
exact sine of a rational number of turns. -/

namespace Sys2Proof

/-- One register word or port word (R5, `XLEN` = 32). -/
abbrev Word := BitVec 32

/-- One sample of pixel memory (R60). -/
abbrev Byte := BitVec 8

/-- A frequency in Hz or a colour value: the exact rational `Q` of R6. -/
abbrev Freq := Rat

/-- A count of `TIME_UNIT` = 1 ns: the unbounded natural `Time` of R6. -/
abbrev Time := Nat

/-- One sample's amplitude (R229; log entry 5), as plain data: a rational, as every floating-point number is, or the
real number `sin(2π q)` that the exact configuration has for a rational number `q` of turns (R224, 92 D13). -/
inductive Amp where
  | value (r : Rat)
  | sine (q : Rat)
  deriving DecidableEq, Repr

/-- One item of an encoded segment or record: a word, or a Freq field. The bit form of a Freq field is
`NUM.freq_repr`, OPEN (R95), so an encoding shows the rational in its place, as the word-level forms of
95_test_vectors.md P2 do (log entry 6). -/
inductive Field where
  | word (w : Word)
  | freq (f : Freq)
  deriving DecidableEq, Repr

end Sys2Proof
end

