-- ==== Sys2Proof/Config.lean ====
section
/-! DEFINITION. What an implementation fixes (R5, R6, R47): the parameters of the block, and what the spec leaves open, as
constants with no body. -/

namespace Sys2Proof

/-- The numeric configuration `NUM` of R6, named as plain data: the exact one (R5, the value this hardware takes), or
one of the others an implementation may have (log entry 3). -/
inductive Num where
  | exact
  | approx (k : Nat)
  deriving DecidableEq, Repr

/-- `NUM.rnd_f` of the `k`-th configuration that is not exact: free (R6, 92 D13). -/
opaque Config.rounding : Nat → Rat → Rat

/-- The sine of `q` turns in the `k`-th configuration that is not exact, before it is held to [-1, 1]: free (R230, 92
D13). -/
opaque Config.sine : Nat → Rat → Rat

/-- `NUM.freq_repr`: the four words a FREQ window shows for a rational, OPEN (R6, R64, 92 D13). -/
opaque Config.freqRepr : Num → Rat → BitVec 128

/-- A free word; `Params.default` holds `PIXMEM_BYTES`, OPEN, to its range (R5, U10). -/
opaque Config.pixmemWord : BitVec 32

/-- The parameters of R5, fixed for the life of the block: arguments of the step (R47; log entry 2). -/
structure Params where
  /-- `NUM` (R6). -/
  num         : Num
  /-- `N0`, the phase index of buffer index 0 (R227). -/
  n0          : Nat
  /-- `PIXMEM_BYTES`, the populated size of pixel memory. -/
  pixmemBytes : Nat
  deriving DecidableEq, Repr

/-- The default arguments: `NUM` exact, `N0` = 0 (R5), and a `PIXMEM_BYTES` of which nothing is known but its range
`0 < PIXMEM_BYTES < 2^32`. -/
def Params.default : Params where
  num         := .exact
  n0          := 0
  pixmemBytes := max 1 Config.pixmemWord.toNat

end Sys2Proof
end

