-- ==== Sys2Proof/Syntax.lean ====
section
/-! DEFINITION. The instructions: one constructor per row of spec/opcode_table.json (30_encoding.md R90): seven
commands (R92), two schedule segments (R95), three live records (R96). -/

namespace Sys2Proof

/-- An instruction of WSSTV-ENC (R90). `K` of a curve is the length of its list of frequencies (R95, R96). -/
inductive Instr where
  /-- `CLEAR`, command word 0 (R241). -/
  | clear
  /-- `MAP_GREY`, command word 1 (R132). -/
  | mapGrey
  /-- `MAP_RGB`, command word 2 (R133). -/
  | mapRgb
  /-- `MAP_YC`, command word 3 (R134). -/
  | mapYc
  /-- `ENC_HDR`, command word 4 (R159). -/
  | encHdr
  /-- `ENC_LIVE`, command word 5 (R199). -/
  | encLive
  /-- `ENC_PCM`, command word 6 (R228). -/
  | encPcm
  /-- `HOLD f, d`: hold the frequency `f` for `d` ns (R150). -/
  | hold (f : Freq) (d : Time)
  /-- `CURVE fs, d`: lay the frequencies across `d` ns (R190, R95). -/
  | curve (fs : List Freq) (d : Time)
  /-- `SET f @ t`: from `t` on, hold `f` (R96, R198). -/
  | set (f : Freq) (t : Time)
  /-- `CURVE_AT fs @ t for d`: from `t`, for `d` ns, follow the curve (R96, R198). -/
  | curveAt (fs : List Freq) (t : Time) (d : Time)
  /-- `SPAN start, stop`: the oscillation starts and stops (R96, R200). -/
  | span (start : Time) (stop : Time)
  deriving DecidableEq, Repr

end Sys2Proof
end

