-- ==== Sys2Proof/WellFormed.lean ====
section
/-! DEFINITION. Which instructions have an encoding: a curve's `K` is 1..65535 and a Time field is an unsigned 64-bit
count (R95, R96). Each check that fails has a name. -/

namespace Sys2Proof

/-- Why an instruction is no instruction of R95 or R96. -/
inductive IllFormed where
  /-- A `CURVE` or `CURVE_AT` with `K` = 0 (R98). -/
  | emptyCurve
  /-- A curve of more than 65535 frequencies: `K` is a 16-bit field (R95, R96). -/
  | longCurve
  /-- A time of 2^64 ns or more: a Time field is two words (R95). -/
  | wideTime
  deriving DecidableEq, Repr

/-- A Time field holds `t` (R95). -/
abbrev timeFits (t : Time) : Bool := decide (t < 2 ^ 64)

/-- What is wrong with a list of curve frequencies, if anything (R95, R96, R98). -/
def curveFlaw (fs : List Freq) : Option IllFormed :=
  if fs.length = 0 then some .emptyCurve
  else if 65535 < fs.length then some .longCurve
  else none

/-- What is wrong with an instruction, if anything. -/
def Instr.flaw (i : Instr) : Option IllFormed :=
  match i with
  | .clear => none
  | .mapGrey => none
  | .mapRgb => none
  | .mapYc => none
  | .encHdr => none
  | .encLive => none
  | .encPcm => none
  | .hold _ d => if timeFits d then none else some .wideTime
  | .curve fs d => if timeFits d then curveFlaw fs else some .wideTime
  | .set _ t => if timeFits t then none else some .wideTime
  | .curveAt fs t d => if timeFits t && timeFits d then curveFlaw fs else some .wideTime
  | .span start stop => if timeFits start && timeFits stop then none else some .wideTime

/-- `i` is an instruction of the table with operands its fields can hold. -/
abbrev Instr.WellFormed (i : Instr) : Prop := i.flaw = none

end Sys2Proof
end

