-- ==== Sys2Proof/Decode.lean ====
section
/-! DEFINITION. The decoder and the encoder of 30_encoding.md: a command by its whole word (R91, R92), a segment or
a record by `TAG` then `K` (R95 to R97, R103); everything else is rejected by name. -/

namespace Sys2Proof

/-- Why a stream of fields is no instruction. -/
inductive DecodeError where
  /-- There is no header word. -/
  | noHeader
  /-- The fields end before the instruction does (R97). -/
  | truncated
  /-- A Freq field stands where a word belongs, or a word where a Freq field belongs (R95). -/
  | wrongField
  /-- `TAG` 0 and not one of the seven opcodes (R92, R98). -/
  | reservedCommand
  /-- `TAG` 0x3 to 0x7 or 0xB to 0xF (R98). -/
  | reservedTag
  /-- Header bits [27:16] are not zero (R95, U5). -/
  | reservedBits
  /-- `K` is not 0 in a `HOLD`, `SET` or `SPAN` header (R98). -/
  | strayCount
  deriving DecidableEq, Repr

/-! ## Reading fields -/

/-- The next field, which must be a word. -/
def takeWord (fields : List Field) : Except DecodeError (Word × List Field) :=
  match fields with
  | .word w :: rest => .ok (w, rest)
  | .freq _ :: _ => .error .wrongField
  | [] => .error .truncated

/-- The next field, which must be a Freq. -/
def takeFreq (fields : List Field) : Except DecodeError (Freq × List Field) :=
  match fields with
  | .freq f :: rest => .ok (f, rest)
  | .word _ :: _ => .error .wrongField
  | [] => .error .truncated

/-- A Time field: two words, low word first (R95). -/
def takeTime (fields : List Field) : Except DecodeError (Time × List Field) :=
  match takeWord fields with
  | .error e => .error e
  | .ok (lo, rest) =>
    match takeWord rest with
    | .error e => .error e
    | .ok (hi, rest') => .ok (hi.toNat * 2 ^ 32 + lo.toNat, rest')

/-- `k` Freq fields in order. -/
def takeFreqs : Nat → List Field → Except DecodeError (List Freq × List Field)
  | 0, fields => .ok ([], fields)
  | k + 1, fields =>
    match takeFreq fields with
    | .error e => .error e
    | .ok (f, rest) =>
      match takeFreqs k rest with
      | .error e => .error e
      | .ok (fs, rest') => .ok (f :: fs, rest')

/-! ## The header word (R95) -/

/-- Bits [31:28]. -/
def headerTag (h : Word) : Nat := h.toNat / 2 ^ 28

/-- Bits [27:16], zero in every defined header. -/
def headerZero (h : Word) : Nat := h.toNat / 2 ^ 16 % 2 ^ 12

/-- Bits [15:0], `K`. -/
def headerCount (h : Word) : Nat := h.toNat % 2 ^ 16

/-- The header word of a tag and a count. -/
def headerWord (tag k : Nat) : Word := BitVec.ofNat 32 (tag * 2 ^ 28 + k)

/-! ## Decoding -/

/-- The command whose opcode is the whole word (R91, R92); none of the seven: reserved (R100 a). -/
def decodeCommand (w : Word) : Option Instr :=
  match w.toNat with
  | 0 => some .clear
  | 1 => some .mapGrey
  | 2 => some .mapRgb
  | 3 => some .mapYc
  | 4 => some .encHdr
  | 5 => some .encLive
  | 6 => some .encPcm
  | _ => none

/-- The fields after a `HOLD` header. -/
def decodeHold (fields : List Field) : Except DecodeError (Instr × List Field) :=
  match takeFreq fields with
  | .error e => .error e
  | .ok (f, rest) =>
    match takeTime rest with
    | .error e => .error e
    | .ok (d, rest') => .ok (.hold f d, rest')

/-- The fields after a `CURVE` header of count `k`. -/
def decodeCurve (k : Nat) (fields : List Field) : Except DecodeError (Instr × List Field) :=
  match takeTime fields with
  | .error e => .error e
  | .ok (d, rest) =>
    match takeFreqs k rest with
    | .error e => .error e
    | .ok (fs, rest') => .ok (.curve fs d, rest')

/-- The fields after a `SET` header. -/
def decodeSet (fields : List Field) : Except DecodeError (Instr × List Field) :=
  match takeFreq fields with
  | .error e => .error e
  | .ok (f, rest) =>
    match takeTime rest with
    | .error e => .error e
    | .ok (t, rest') => .ok (.set f t, rest')

/-- The fields after a `CURVE_AT` header of count `k`. -/
def decodeCurveAt (k : Nat) (fields : List Field) : Except DecodeError (Instr × List Field) :=
  match takeTime fields with
  | .error e => .error e
  | .ok (t, rest) =>
    match takeTime rest with
    | .error e => .error e
    | .ok (d, rest') =>
      match takeFreqs k rest' with
      | .error e => .error e
      | .ok (fs, rest'') => .ok (.curveAt fs t d, rest'')

/-- The fields after a `SPAN` header. -/
def decodeSpan (fields : List Field) : Except DecodeError (Instr × List Field) :=
  match takeTime fields with
  | .error e => .error e
  | .ok (start, rest) =>
    match takeTime rest with
    | .error e => .error e
    | .ok (stop, rest') => .ok (.span start stop, rest')

/-- A header whose `K` must be 0 (R95, R96, R98). -/
def withoutCount (h : Word) (body : Except DecodeError (Instr × List Field)) :
    Except DecodeError (Instr × List Field) :=
  if headerCount h = 0 then body else .error .strayCount

/-- The instruction that begins with header `h`, by `TAG` then `K` (R97, R103). A curve with `K` = 0 has a length
(R97) and is read; it is no well-formed instruction (R98), and `step` never runs it (log entry 18). -/
def decodeFrom (h : Word) (rest : List Field) : Except DecodeError (Instr × List Field) :=
  match headerTag h with
  | 0x0 =>
    match decodeCommand h with
    | some i => .ok (i, rest)
    | none => .error .reservedCommand
  | 0x1 => if headerZero h = 0 then withoutCount h (decodeHold rest) else .error .reservedBits
  | 0x2 => if headerZero h = 0 then decodeCurve (headerCount h) rest else .error .reservedBits
  | 0x8 => if headerZero h = 0 then withoutCount h (decodeSet rest) else .error .reservedBits
  | 0x9 => if headerZero h = 0 then decodeCurveAt (headerCount h) rest else .error .reservedBits
  | 0xA => if headerZero h = 0 then withoutCount h (decodeSpan rest) else .error .reservedBits
  | _ => .error .reservedTag

/-- One instruction from the front of a stream of fields, with the rest of the stream (R103). Total. -/
def decode (fields : List Field) : Except DecodeError (Instr × List Field) :=
  match fields with
  | .word h :: rest => decodeFrom h rest
  | .freq _ :: _ => .error .wrongField
  | [] => .error .noHeader

/-! ## Encoding -/

/-- A Time field (R95): the low word, then the high word. -/
def timeFields (t : Time) : List Field :=
  [.word (BitVec.ofNat 32 t), .word (BitVec.ofNat 32 (t / 2 ^ 32))]

/-- Freq fields in order. -/
def freqFields (fs : List Freq) : List Field := fs.map Field.freq

/-- The fields of an instruction (R92, R95, R96). -/
def encode (i : Instr) : List Field :=
  match i with
  | .clear => [.word 0]
  | .mapGrey => [.word 1]
  | .mapRgb => [.word 2]
  | .mapYc => [.word 3]
  | .encHdr => [.word 4]
  | .encLive => [.word 5]
  | .encPcm => [.word 6]
  | .hold f d => .word (headerWord 0x1 0) :: .freq f :: timeFields d
  | .curve fs d => .word (headerWord 0x2 fs.length) :: (timeFields d ++ freqFields fs)
  | .set f t => .word (headerWord 0x8 0) :: .freq f :: timeFields t
  | .curveAt fs t d => .word (headerWord 0x9 fs.length) :: (timeFields t ++ (timeFields d ++ freqFields fs))
  | .span start stop => .word (headerWord 0xA 0) :: (timeFields start ++ timeFields stop)

/-! ## The opcode table's words -/

/-- Operand fields of zeros for a header, as many as R97 gives it; a Freq field of zero bits stands for 0 Hz
(log entry 17). -/
def zeroOperands (h : Word) : List Field :=
  match headerTag h with
  | 0x1 => .freq 0 :: timeFields 0
  | 0x2 => timeFields 0 ++ freqFields (List.replicate (headerCount h) 0)
  | 0x8 => .freq 0 :: timeFields 0
  | 0x9 => timeFields 0 ++ (timeFields 0 ++ freqFields (List.replicate (headerCount h) 0))
  | 0xA => timeFields 0 ++ timeFields 0
  | _ => []

/-- The instruction the decoder reads from a row's word, its operand words zero. Every row of the opcode table has 32
bits: another length, or a number that does not fit, is no word of the table. -/
def decodeTableWord (nbits w : Nat) : Option Instr :=
  if nbits = 32 ∧ w < 2 ^ 32 then
    match decode (.word (BitVec.ofNat 32 w) :: zeroOperands (BitVec.ofNat 32 w)) with
    | .ok (i, _) => some i
    | .error _ => none
  else none

/-- The rows of spec/opcode_table.json: mnemonic, match, mask. -/
def opcodeRows : List (String × Word × Word) :=
  [("CLEAR", 0x00000000, 0xFFFFFFFF), ("MAP_GREY", 0x00000001, 0xFFFFFFFF),
   ("MAP_RGB", 0x00000002, 0xFFFFFFFF), ("MAP_YC", 0x00000003, 0xFFFFFFFF),
   ("ENC_HDR", 0x00000004, 0xFFFFFFFF), ("ENC_LIVE", 0x00000005, 0xFFFFFFFF),
   ("ENC_PCM", 0x00000006, 0xFFFFFFFF), ("HOLD", 0x10000000, 0xFFFFFFFF),
   ("CURVE", 0x20000000, 0xFFFF0000), ("SET", 0x80000000, 0xFFFFFFFF),
   ("CURVE_AT", 0x90000000, 0xFFFF0000), ("SPAN", 0xA0000000, 0xFFFFFFFF)]

end Sys2Proof
end

