-- ==== Sys2Proof/Machine/State.lean ====
section
/-! DEFINITION. The state of the block (10_state.md R20 to R51), the two agents' own plain data (R9), the reasons a
step can stop, and the machine after reset (R49). -/

namespace Sys2Proof.Machine

/-- `STATUS.STATE` (R33, R94). -/
inductive RunState where
  | idle
  | busy
  | done
  | error
  deriving DecidableEq, Repr

/-- `ERR.CODE` (R34, R94): none, or one of the three errors of R270. -/
inductive ErrCode where
  | none
  | unsupportedFormatOperation
  | inputSizeMismatch
  | invalidParameter
  deriving DecidableEq, Repr

/-- An element of `SCHED` (R43). `CURVE`'s `k` is the length of its list. -/
inductive Segment where
  | hold (f : Freq) (d : Time)
  | curve (fs : List Freq) (d : Time)
  deriving DecidableEq, Repr

/-- An element of `OUT_LIVE` (R44, R96). -/
inductive Record where
  | set (f : Freq) (t : Time)
  | curveAt (fs : List Freq) (t : Time) (d : Time)
  | span (start : Time) (stop : Time)
  deriving DecidableEq, Repr

/-- A frequency result register (R38): the value it holds, and whether a `MAP_*` command has written it since reset (log
entry 7). -/
structure FreqReg where
  value   : Freq
  written : Bool
  deriving DecidableEq, Repr

/-- The encode command that is running: the only commands with a stepwise view (R9). -/
inductive EncCmd where
  | hdr
  | live
  | pcm
  deriving DecidableEq, Repr

/-- Where a running encode command stands: accepted with its checks next (R280), or projecting `SCHED` (R202). -/
inductive Phase where
  | checks
  | project
  deriving DecidableEq, Repr

/-- The level at which encode commands run (R9; log entry 1): one transition, one step per segment, or one step per
sample (R232). -/
inductive View where
  | atomic
  | segment
  | sample
  deriving DecidableEq, Repr

/-- The width of a host access to `REG` (R64). -/
inductive AccessWidth where
  | byte
  | half
  | word
  | double
  deriving DecidableEq, Repr

/-- A move of the host (R304; log entry 9). -/
inductive HostMove where
  /-- A write to `REG` at a byte offset (R243); at offset 0 it is a command (R240). -/
  | write (offset : Nat) (width : AccessWidth) (v : Word)
  /-- A read of `REG` at a byte offset (R244). -/
  | read (offset : Nat) (width : AccessWidth)
  /-- A write of consecutive pixel bytes from an address (R245). -/
  | pixels (addr : Nat) (bytes : List Byte)
  /-- A read of one record of `OUT_LIVE` (R246). -/
  | readLive (index : Nat)
  /-- A read of one sample of `OUT_PCM` (R246). -/
  | readPcm (index : Nat)
  /-- The host makes no access: the engine has this turn. -/
  | yield
  /-- The host polls until `STATE` is not `BUSY` (R303, step 6). -/
  | await
  /-- The reset input (R300). -/
  | reset
  deriving DecidableEq, Repr

/-- What the host's last read returned (log entry 10). -/
inductive HostData where
  /-- No read yet, or a read of an output index where there is no element (log entry 19). -/
  | nothing
  | word (w : Word)
  | record (r : Record)
  | sample (a : Amp)
  deriving DecidableEq, Repr

/-- Why a step stops with a fault. -/
inductive Fault where
  /-- A command reads a pixel byte below `PIX_LEN` that the host has not written since reset (U3, treatment `fault`).
  Raised by `MAP_GREY`, `MAP_RGB`, `MAP_YC`, `ENC_LIVE`, `ENC_PCM`. Safe: the spec gives that byte no value. -/
  | pixUnwritten
  deriving DecidableEq, Repr

/-- Why a step gives no meaning. -/
inductive Refusal where
  /-- The instruction's meaning is not written. Raised by no arm of `exec`. Safe. -/
  | notModelled (mnemonic : String)
  /-- The engine meets a segment of `SCHED` that is no well-formed instruction (R95, R98, U5 `stuck`); no command
  builds one. Raised by `step`. Safe. -/
  | illFormedSegment
  deriving DecidableEq, Repr

/-- The state of the block, the parameters apart: every piece of state R20 names, then what it implies, then the model's
own fields. -/
structure Block where
  /-- `FAMILY` (R21). -/
  family     : BitVec 3
  /-- `NUM_LINES` (R22). -/
  numLines   : BitVec 16
  /-- `H_PIXELS` (R23). -/
  hPixels    : BitVec 16
  /-- `T_BLANK`, ns (R24). -/
  tBlank     : Word
  /-- `T_SCAN`, ns (R25). -/
  tScan      : Word
  /-- `T_SYNC`, ns (R26). -/
  tSync      : Word
  /-- `VIS_CODE` (R27). -/
  visCode    : BitVec 7
  /-- `SAMPLE_RATE`, Hz (R28). -/
  sampleRate : Word
  /-- `T0_LO` (R29). -/
  t0Lo       : Word
  /-- `T0_HI`, bit 31 hard-wired to 0 (R29). -/
  t0Hi       : BitVec 31
  /-- `PIX_LEN` (R30). -/
  pixLen     : Word
  /-- `LINE` (R31). -/
  line       : BitVec 16
  /-- `HPOS` (R31). -/
  hpos       : BitVec 16
  /-- `STATUS.STATE` (R33). -/
  status     : RunState
  /-- `ERR.CODE` (R34). -/
  err        : ErrCode
  /-- `SEG_COUNT` (R35). -/
  segCount   : Word
  /-- `SAMP_COUNT` (R36). -/
  sampCount  : BitVec 64
  /-- `SAMP_EMIT` (R36). -/
  sampEmit   : BitVec 64
  /-- `FREQ0` (R38). -/
  freq0      : FreqReg
  /-- `FREQ1` (R38). -/
  freq1      : FreqReg
  /-- `FREQ2` (R38). -/
  freq2      : FreqReg
  /-- `SEG_PTR` (R39). -/
  segPtr     : Nat
  /-- `SUB` (R39). -/
  sub        : Nat
  /-- `J` (R39). -/
  j          : Nat
  /-- `N` (R40). -/
  n          : Nat
  /-- `T_ACC`, ns (R41). -/
  tAcc       : Time
  /-- `PREP[l][t][x]` (R42). -/
  prep       : List (List (List Freq))
  /-- `SCHED` (R43). -/
  sched      : List Segment
  /-- `OUT_LIVE` (R44). -/
  outLive    : List Record
  /-- `OUT_PCM` (R45). -/
  outPcm     : List Amp
  /-- `PIX`: the bytes the host has written, addresses strictly rising (R46). -/
  pix        : List Host.Cell
  /-- The encode command accepted last; read only while `BUSY` (R240). -/
  running    : EncCmd
  /-- Its phase; read only while `BUSY` (R280, R202). -/
  phase      : Phase
  /-- The level at which encode commands run (R9). -/
  view       : View
  /-- The host's moves to come, the next one first (R9). -/
  host       : List HostMove
  /-- What the host's last read returned (R244, R246). -/
  hostData   : HostData
  /-- The model's record of U4's fault: the host has read a `FREQ` register that nothing had written (R38; log entry
  7). Set by that read and never cleared, so that a claim excludes it by a premise. -/
  readFault  : Bool
  deriving DecidableEq, Repr

/-- What the host's interface passes from step to step: the block, and beside it the parameters `NUM`, `N0` and
`PIXMEM_BYTES`, arguments of `blockStep` and no part of the block (R47; log entry 2). -/
structure State extends Block where
  params : Params
  deriving DecidableEq, Repr

/-- The block right after reset (R49, R300); the fields the spec gives no value are named in log entries 1, 7, 9, 10 and
13. -/
def Block.reset : Block where
  family      := 0
  numLines    := 0
  hPixels     := 0
  tBlank      := 0
  tScan       := 0
  tSync       := 0
  visCode     := 0
  sampleRate  := 0
  t0Lo        := 0
  t0Hi        := 0
  pixLen      := 0
  line        := 0
  hpos        := 0
  status      := .idle
  err         := .none
  segCount    := 0
  sampCount   := 0
  sampEmit    := 0
  freq0       := { value := 0, written := false }
  freq1       := { value := 0, written := false }
  freq2       := { value := 0, written := false }
  segPtr      := 0
  sub         := 0
  j           := 0
  n           := 0
  tAcc        := 0
  prep        := []
  sched       := []
  outLive     := []
  outPcm      := []
  pix         := []
  running     := .hdr
  phase       := .checks
  view        := .atomic
  host        := []
  hostData    := .nothing
  readFault   := false

/-- The block right after reset, with the parameters `p`. -/
def State.resetWith (p : Params) : State := { Block.reset with params := p }

/-- The block right after reset with the default parameters (R5; log entry 2). -/
def State.reset : State := State.resetWith Params.default

end Sys2Proof.Machine
end

