-- ==== Sys2Proof/Machine/Params.lean ====
section
/-! DEFINITION. The protocol constants of R4, exact, and the numeric configuration `NUM` of R6 applied. -/

namespace Sys2Proof.Machine

/-- Milliseconds in ns (R7). -/
def ms (k : Nat) : Time := k * 1000000

/-- ns in a second (R7). -/
def nsPerSecond : Nat := 1000000000

/-- `F_SYNC` (R4). -/
def fSync : Freq := 1200
/-- `F_BLANK` (R4). -/
def fBlank : Freq := 1500
/-- `F_BASE` (R4). -/
def fBase : Freq := 1500
/-- `K_SPAN` (R4): the literal 3.1372549, not 800/255. -/
def kSpan : Rat := 31372549 / 10000000
/-- `F_LEADER[0..7]` (R4). -/
def fLeader : List Freq := [1900, 1500, 1900, 1500, 2300, 1500, 2300, 1500]
/-- `T_LEADER` (R4). -/
def tLeader : Time := ms 100
/-- `F_CAL` (R4). -/
def fCal : Freq := 1900
/-- `T_CAL` (R4). -/
def tCal : Time := ms 300
/-- `T_CALSYNC` (R4). -/
def tCalSync : Time := ms 10
/-- `T_VISBIT` (R4). -/
def tVisBit : Time := ms 30
/-- `F_VIS1` (R4). -/
def fVis1 : Freq := 1100
/-- `F_VIS0` (R4). -/
def fVis0 : Freq := 1300
/-- `C_YC` (R4). -/
def cYC : Rat := 3906 / 1000000
/-- `Y_OFF` (R4): the literal WS prints (U9). -/
def yOff : Rat := 6
/-- `C_OFF` (R4). -/
def cOff : Rat := 128

/-- `NUM.rnd_f`, applied to every frequency result (R6): the identity in the exact configuration. -/
def rndF (num : Num) (q : Freq) : Freq :=
  match num with
  | .exact => q
  | .approx k => Config.rounding k q

/-- The number of turns in [-1/4, 1/4] that has the sine of `q` turns: the sine has period 1, and `sin(π - x)` is
`sin x`. -/
def principalTurn (q : Rat) : Rat :=
  let r := q - q.floor
  if r ≤ 1 / 4 then r else if r ≤ 3 / 4 then 1 / 2 - r else r - 1

/-- The exact sine of `q` turns, `q` in [-1/4, 1/4] (R224). Where it is a rational (Niven: 0, 1/2, 1 and their negatives)
it is that rational, so that equal sines are equal data. -/
def principalSine (q : Rat) : Amp :=
  if q = 0 then .value 0
  else if q = 1 / 12 then .value (1 / 2)
  else if q = -1 / 12 then .value (-1 / 2)
  else if q = 1 / 4 then .value 1
  else if q = -1 / 4 then .value (-1)
  else .sine q

/-- `NUM.sinTurn` (R230): in the exact configuration, the default, the real sine of `q` turns (R6, R224, 92 D13); in any
other the implementation's own, free within [-1, 1] (R230 a, R229; log entry 4). -/
def sinTurn (num : Num) (q : Rat) : Amp :=
  match num with
  | .exact => principalSine (principalTurn q)
  | .approx k => .value (max (-1) (min 1 (Config.sine k q)))

/-- The real number an amplitude stands for. -/
def ampIs (a : Amp) (x : ℝ) : Prop :=
  match a with
  | .value r => x = r
  | .sine q => x = Real.sin (2 * Real.pi * q)

end Sys2Proof.Machine
end

