-- ==== Sys2Proof/Machine/Flags.lean ====
section
/-! DEFINITION. The status bits of R50 (the block has no condition codes and no arithmetic flags), the codes they
read as (R94), and the parity of R155. -/

namespace Sys2Proof.Machine

/-- Command accepted: `STATE <- BUSY`, `CODE <- 0` (R50). -/
def flagsAccepted (s : State) : State := { s with status := .busy, err := .none }

/-- Command succeeded: `STATE <- DONE` (R50). -/
def flagsDone (s : State) : State := { s with status := .done }

/-- `CLEAR` succeeded: `STATE <- IDLE` (R50). -/
def flagsIdle (s : State) : State := { s with status := .idle }

/-- Command failed: `CODE <- code`, `STATE <- ERROR` (R50, R274). -/
def flagsFailed (e : ErrCode) (s : State) : State := { s with status := .error, err := e }

/-- What `STATUS` reads (R33, R94). -/
def statusWord (st : RunState) : Word :=
  match st with
  | .idle => 0
  | .busy => 1
  | .done => 2
  | .error => 3

/-- What `ERR` reads (R34, R94). -/
def errWord (e : ErrCode) : Word :=
  match e with
  | .none => 0
  | .unsupportedFormatOperation => 1
  | .inputSizeMismatch => 2
  | .invalidParameter => 3

/-- The parity bit of a VIS code: exclusive or of its seven bits, 1 iff the count of set bits is odd (R155). -/
def visParity (v : BitVec 7) : Bool :=
  v.getLsbD 0 ^^ v.getLsbD 1 ^^ v.getLsbD 2 ^^ v.getLsbD 3 ^^ v.getLsbD 4 ^^ v.getLsbD 5 ^^ v.getLsbD 6

end Sys2Proof.Machine
end

