-- ==== Sys2Proof/Machine/Operands.lean ====
section
/-! DEFINITION. How each operand is put together (R99): the pixel address, the start time, the tone of a VIS bit, the
family tag, the sample counts, and the 64-bit pairs of R73. -/

namespace Sys2Proof.Machine

/-- A format family (R93). -/
inductive Family where
  | martin
  | scottie
  | pd
  | wrasse
  deriving DecidableEq, Repr

/-- The family a `FAMILY` tag selects; 0 and 5 to 7 select none (R93). -/
def familyOf (tag : BitVec 3) : Option Family :=
  match tag.toNat with
  | 1 => some .martin
  | 2 => some .scottie
  | 3 => some .pd
  | 4 => some .wrasse
  | _ => none

/-- The byte address of the pixel of line `l`, position `x` with `w` pixels a line, on unbounded naturals (R61). -/
def pixBase (w l x : Nat) : Nat := l * (w * 4) + x * 4

/-- `T0 = T0_HI * 2^32 + T0_LO` (R29, R99). -/
def startTime (s : State) : Time := s.t0Hi.toNat * 2 ^ 32 + s.t0Lo.toNat

/-- The tone of a VIS bit (R99, R154). -/
def visTone (b : Bool) : Freq := if b then fVis1 else fVis0

/-- `EST_DUR`, recomputed at every read (R37, R201). -/
def estDur (s : State) : Nat :=
  s.numLines.toNat * (s.tScan.toNat + s.tBlank.toNat + 3 * s.tSync.toNat)

/-- The duration of a segment (R95). -/
def segDuration (seg : Segment) : Time :=
  match seg with
  | .hold _ d => d
  | .curve _ d => d

/-- The frequencies a segment holds in turn: one for a hold, `k` for a curve (R222, R223). -/
def segFreqs (seg : Segment) : List Freq :=
  match seg with
  | .hold f _ => [f]
  | .curve fs _ => fs

/-- The samples of each frequency of a segment at `rate` Hz: `floor(sec(d) * fs)` for a hold (R222),
`floor((sec(d) / k) * fs)` for a curve (R223). -/
def segSamples (rate : Nat) (seg : Segment) : Nat :=
  match seg with
  | .hold _ d => d * rate / nsPerSecond
  | .curve fs d => d * rate / (fs.length * nsPerSecond)

/-- The low word of a 64-bit value (R73). -/
def loWord (v : Nat) : Word := BitVec.ofNat 32 v

/-- The high word of a 64-bit value (R73). -/
def hiWord (v : Nat) : Word := BitVec.ofNat 32 (v / 2 ^ 32)

end Sys2Proof.Machine
end

