-- ==== Sys2Proof/Machine/Ops.lean ====
section
/-! DEFINITION. The named operations of the machine: pixel memory, command acceptance (R240), raising an error (R274,
the block's only exception entry; there is no return, R281), success, and the writes to the two outputs (R8). -/

namespace Sys2Proof.Machine

/-- Go on with `f` from the next state; a stop stays a stop. -/
def andThen (o : Host.Outcome State Fault Refusal) (f : State → Host.Outcome State Fault Refusal) :
    Host.Outcome State Fault Refusal :=
  match o with
  | .next s => f s
  | .fault r => .fault r
  | .refused r => .refused r

/-! ## Pixel memory (R46, R60) -/

/-- The byte at an address; an address nothing has written has no value (U3). -/
def memRead (m : List Host.Cell) (a : Nat) : Option Byte :=
  match m with
  | [] => none
  | (b, v) :: rest => if a = b then some v else if a < b then none else memRead rest a

/-- Write one byte, keeping the addresses strictly rising. -/
def memWrite (m : List Host.Cell) (a : Nat) (v : Byte) : List Host.Cell :=
  match m with
  | [] => [(a, v)]
  | (b, w) :: rest =>
    if a < b then (a, v) :: (b, w) :: rest
    else if a = b then (a, v) :: rest
    else (b, w) :: memWrite rest a v

/-- Every address of `m` is above `a`, and they rise strictly. -/
def memSortedAbove (a : Nat) (m : List Host.Cell) : Bool :=
  match m with
  | [] => true
  | (b, _) :: rest => decide (a < b) && memSortedAbove b rest

/-- The canonical form of pixel memory: addresses strictly rising (an unlisted address has no value, so no listed
entry can equal it). -/
def Memory.wf (m : List Host.Cell) : Bool :=
  match m with
  | [] => true
  | (b, _) :: rest => memSortedAbove b rest

/-- Every listed address is a byte of the populated memory (R5, R60). -/
def Memory.below (bound : Nat) (m : List Host.Cell) : Bool := m.all fun c => decide (c.1 < bound)

/-- The host's write of one pixel byte: dropped at or above `PIXMEM_BYTES` (R245). -/
def pixWriteByte (s : State) (a : Nat) (v : Byte) : State :=
  if a < s.params.pixmemBytes then { s with pix := memWrite s.pix a v } else s

/-- The host's write of consecutive pixel bytes (R245, R101). -/
def pixWriteBytes (s : State) (a : Nat) (bytes : List Byte) : State :=
  match bytes with
  | [] => s
  | v :: rest => pixWriteBytes (pixWriteByte s a v) (a + 1) rest

/-- The three colour bytes of the pixel based at `b`, if the host has written them (R62, U3); alpha is not read
(R63). -/
def pixColours (m : List Host.Cell) (b : Nat) : Option (Byte × Byte × Byte) :=
  match memRead m b, memRead m (b + 1), memRead m (b + 2) with
  | some red, some green, some blue => some (red, green, blue)
  | _, _, _ => none

/-- The pixel based at `b` lies in the buffer, alpha included (R62, 92 D21). -/
def pixInBounds (pixLen b : Nat) : Bool := decide (b + 3 < pixLen)

/-! ## Commands -/

/-- Acceptance, the common first step of every command (R240). -/
def accept (s : State) : State :=
  flagsAccepted { s with
    outLive := [], outPcm := [], segCount := 0, sampCount := 0, sampEmit := 0,
    segPtr := 0, sub := 0, j := 0, n := 0, tAcc := startTime s }

/-- `raise E`: the command ends with the error, its outputs empty and its counters zero; nothing else changes and
control goes nowhere (R274). -/
def raiseError (e : ErrCode) (s : State) : State :=
  flagsFailed e { s with outLive := [], outPcm := [], segCount := 0, sampCount := 0, sampEmit := 0 }

/-- A `CMD` write is ignored while `BUSY`; else the command is accepted and its body runs (R240). -/
def runCommand (body : State → Host.Outcome State Fault Refusal) (s : State) : Host.Outcome State Fault Refusal :=
  if s.status = .busy then .next s else body (accept s)

/-! ## Outputs -/

/-- `emit_live(rec)`: append a record to `OUT_LIVE` (R8). -/
def emitLive (r : Record) (s : State) : State := { s with outLive := s.outLive ++ [r] }

/-- `PcmWrite(n, a)`: write amplitude `a` at index `n` of `OUT_PCM` (R8). -/
def pcmWrite (buf : List Amp) (n : Nat) (a : Amp) : List Amp := buf.set n a

/-- Move to the next segment of `SCHED` (R39). -/
def nextSegment (s : State) : State := { s with segPtr := s.segPtr + 1, sub := 0, j := 0 }

end Sys2Proof.Machine
end

