-- ==== Sys2Proof/Machine/Header.lean ====
section
/-! DEFINITION. The HeaderProtocol (41_header_protocol.md): the 21 holds every schedule begins with (R151 to R157).
None of these reads or writes a register but through the VIS code it is given (R158). -/

namespace Sys2Proof.Machine

/-- `LEADER` (R151). -/
def leader : List Segment := fLeader.map fun f => .hold f tLeader

/-- `CALHDR` (R152). -/
def calHeader : List Segment := [.hold fCal tCal, .hold fSync tCalSync, .hold fCal tCal]

/-- `VISSTART` (R153). -/
def visStart : List Segment := [.hold fSync tVisBit]

/-- `VISBIT b` (R154). -/
def visBit (b : Bool) : Segment := .hold (visTone b) tVisBit

/-- The seven data bits, register bit 0 first (R154). -/
def visData (v : BitVec 7) : List Segment := (List.range 7).map fun i => visBit (v.getLsbD i)

/-- `VISPAR p` (R155). -/
def visPar (v : BitVec 7) : List Segment := [visBit (visParity v)]

/-- `VISSTOP` (R156). -/
def visStop : List Segment := [.hold fSync tVisBit]

/-- `Header(v)` (R157). -/
def header (v : BitVec 7) : List Segment :=
  leader ++ calHeader ++ visStart ++ visData v ++ visPar v ++ visStop

end Sys2Proof.Machine
end

