-- ==== Sys2Proof/Machine/Color.lean ====
section
/-! DEFINITION. The ColorEncoder (40_color_encoder.md): the three colour mappings as pure functions (R131 to R135) and
the commands `MAP_GREY`, `MAP_RGB`, `MAP_YC`. -/

namespace Sys2Proof.Machine

/-- `Hz(v) = F_BASE + v * K_SPAN` (R131). -/
def hz (v : Rat) : Freq := fBase + v * kSpan

/-- `Grey(R, G, B)` (R132). -/
def grey (red green blue : Nat) : Freq :=
  ((299 / 1000 : Rat) * red + (587 / 1000 : Rat) * green + (114 / 1000 : Rat) * blue) * kSpan + fBase

/-- `Y` of R134. -/
def lumaValue (red green blue : Nat) : Rat :=
  yOff + cYC * ((65738 / 1000 : Rat) * red + (129057 / 1000 : Rat) * green + (25064 / 1000 : Rat) * blue)

/-- `R-Y` of R134. -/
def redChromaValue (red green blue : Nat) : Rat :=
  cOff + cYC * ((112439 / 1000 : Rat) * red - (94154 / 1000 : Rat) * green - (18285 / 1000 : Rat) * blue)

/-- `B-Y` of R134. -/
def blueChromaValue (red green blue : Nat) : Rat :=
  cOff + cYC * (-(37945 / 1000 : Rat) * red - (74494 / 1000 : Rat) * green + (112439 / 1000 : Rat) * blue)

/-- A frequency register that a `MAP_*` command has written (R38). -/
def writtenFreq (f : Freq) : FreqReg := { value := f, written := true }

/-- The common course of the three commands (R136): check the bounds of the one pixel (R277), read it, and write the
frequency registers from its colours. -/
def mapPixel (write : Nat → Nat → Nat → State → State) (s : State) : Host.Outcome State Fault Refusal :=
  if pixInBounds s.pixLen.toNat (pixBase s.hPixels.toNat s.line.toNat s.hpos.toNat) then
    match pixColours s.pix (pixBase s.hPixels.toNat s.line.toNat s.hpos.toNat) with
    | some (red, green, blue) => .next (flagsDone (write red.toNat green.toNat blue.toNat s))
    | none => .fault .pixUnwritten
  else .next (raiseError .inputSizeMismatch s)

/-- `FREQ0` from the greyscale mapping (R132). -/
def writeGrey (red green blue : Nat) (s : State) : State :=
  { s with freq0 := writtenFreq (rndF s.params.num (grey red green blue)) }

/-- `FREQ0..2` from direct RGB (R133). -/
def writeRgb (red green blue : Nat) (s : State) : State :=
  { s with
    freq0 := writtenFreq (rndF s.params.num (hz red))
    freq1 := writtenFreq (rndF s.params.num (hz green))
    freq2 := writtenFreq (rndF s.params.num (hz blue)) }

/-- `FREQ0..2` from luma and chroma (R134). -/
def writeYc (red green blue : Nat) (s : State) : State :=
  { s with
    freq0 := writtenFreq (rndF s.params.num (hz (lumaValue red green blue)))
    freq1 := writtenFreq (rndF s.params.num (hz (redChromaValue red green blue)))
    freq2 := writtenFreq (rndF s.params.num (hz (blueChromaValue red green blue))) }

/-- `MAP_GREY` (R132, R136). -/
def execMapGrey (s : State) : Host.Outcome State Fault Refusal := runCommand (mapPixel writeGrey) s

/-- `MAP_RGB` (R133, R136). -/
def execMapRgb (s : State) : Host.Outcome State Fault Refusal := runCommand (mapPixel writeRgb) s

/-- `MAP_YC` (R134, R136). -/
def execMapYc (s : State) : Host.Outcome State Fault Refusal := runCommand (mapPixel writeYc) s

end Sys2Proof.Machine
end

