-- ==== Sys2Proof/Machine/Image.lean ====
section
/-! DEFINITION. The ImagePreparer (42_image_preparer.md): the prepared image of each family as a pure function of the
pixel bytes (R170 to R176). It is only used on images whose colour bytes have all been written (R177, U3). -/

namespace Sys2Proof.Machine

/-- A pixel byte of a written image. The 0 stands for no byte that is used: `imageWritten` is checked first. -/
def pixByte (m : List Host.Cell) (a : Nat) : Nat := (memRead m a).elim 0 BitVec.toNat

/-- Every colour byte the preparer reads for `n` lines of `w` pixels has been written (R305 b). -/
def imageWritten (m : List Host.Cell) (n w : Nat) : Bool :=
  (List.range n).all fun l => (List.range w).all fun x => (pixColours m (pixBase w l x)).isSome

/-- A colour channel of a pixel. -/
inductive Channel where
  | red
  | green
  | blue
  deriving DecidableEq, Repr

/-- The offset of a channel's byte in its pixel (R61). -/
def channelOffset (c : Channel) : Nat :=
  match c with
  | .red => 0
  | .green => 1
  | .blue => 2

/-- One track of direct RGB: a channel along a line, leftmost pixel first (R171, R172, R75). -/
def rgbTrack (num : Num) (m : List Host.Cell) (w l : Nat) (c : Channel) : List Freq :=
  (List.range w).map fun x => rndF num (hz (pixByte m (pixBase w l x + channelOffset c)))

/-- A value of R134 at a pixel. -/
def valueAt (value : Nat → Nat → Nat → Rat) (m : List Host.Cell) (b : Nat) : Rat :=
  value (pixByte m b) (pixByte m (b + 1)) (pixByte m (b + 2))

/-- `RAW`: the frequency of a luma or chroma value at a pixel (R173; rounded as R131 says, log entry 16). -/
def rawYc (num : Num) (value : Nat → Nat → Nat → Rat) (m : List Host.Cell) (w l x : Nat) : Freq :=
  rndF num (hz (valueAt value m (pixBase w l x)))

/-- The luma track of a line, not averaged (R174). -/
def lumaTrack (num : Num) (m : List Host.Cell) (w l : Nat) : List Freq :=
  (List.range w).map fun x => rawYc num lumaValue m w l x

/-- A chroma track of the pair of lines that `l` belongs to: the average of two frequencies (R174). -/
def chromaTrack (num : Num) (value : Nat → Nat → Nat → Rat) (m : List Host.Cell) (w l : Nat) : List Freq :=
  (List.range w).map fun x =>
    rndF num ((rawYc num value m w (2 * (l / 2)) x + rawYc num value m w (2 * (l / 2) + 1) x) / 2)

/-- The three tracks of a line in the family's channel order (R170 to R174, R196). -/
def prepLine (num : Num) (fam : Family) (m : List Host.Cell) (w l : Nat) : List (List Freq) :=
  match fam with
  | .martin => [rgbTrack num m w l .green, rgbTrack num m w l .blue, rgbTrack num m w l .red]
  | .scottie => [rgbTrack num m w l .green, rgbTrack num m w l .blue, rgbTrack num m w l .red]
  | .wrasse => [rgbTrack num m w l .red, rgbTrack num m w l .green, rgbTrack num m w l .blue]
  | .pd => [lumaTrack num m w l, chromaTrack num redChromaValue m w l, chromaTrack num blueChromaValue m w l]

/-- `PREP` for `n` lines of `w` pixels (R170). -/
def prepare (num : Num) (fam : Family) (m : List Host.Cell) (n w : Nat) : List (List (List Freq)) :=
  (List.range n).map fun l => prepLine num fam m w l

/-- `PREP[l][t][x]` (R8, R170). -/
def prepAt (prep : List (List (List Freq))) (l t x : Nat) : Freq := ((prep.getD l []).getD t []).getD x 0

end Sys2Proof.Machine
end

