-- ==== Sys2Proof/Machine/Schedule.lean ====
section
/-! DEFINITION. The ScanLineScheduler (43_scanline_scheduler.md): the body of each family (R190 to R196), the whole
schedule (R191) and its duration (R197). -/

namespace Sys2Proof.Machine

/-- What the scheduler reads: the geometry, the three durations and the prepared image (R190). -/
structure BodyInput where
  lines  : Nat
  pixels : Nat
  tSync  : Time
  tBlank : Time
  tScan  : Time
  prep   : List (List (List Freq))
  deriving DecidableEq, Repr

/-- `SYNC` (R190). -/
def syncSeg (b : BodyInput) : Segment := .hold fSync b.tSync

/-- `BLANK` (R190). -/
def blankSeg (b : BodyInput) : Segment := .hold fBlank b.tBlank

/-- `SCAN l, t` (R190): the `W` frequencies of track `t` of line `l`, leftmost pixel first. -/
def scanSeg (b : BodyInput) (l t : Nat) : Segment :=
  .curve ((List.range b.pixels).map fun x => prepAt b.prep l t x) b.tScan

/-- The eight segments of a Martin line (R192). -/
def martinLine (b : BodyInput) (l : Nat) : List Segment :=
  [syncSeg b, blankSeg b, scanSeg b l 0, blankSeg b, scanSeg b l 1, blankSeg b, scanSeg b l 2, blankSeg b]

/-- The seven segments of a Scottie line (R193). -/
def scottieLine (b : BodyInput) (l : Nat) : List Segment :=
  [blankSeg b, scanSeg b l 0, blankSeg b, scanSeg b l 1, syncSeg b, blankSeg b, scanSeg b l 2]

/-- The six segments of a PD pair of lines (R194). -/
def pdPair (b : BodyInput) (p : Nat) : List Segment :=
  [syncSeg b, blankSeg b, scanSeg b (2 * p) 0, scanSeg b (2 * p) 1, scanSeg b (2 * p) 2, scanSeg b (2 * p + 1) 0]

/-- The five segments of a Wrasse line (R195). -/
def wrasseLine (b : BodyInput) (l : Nat) : List Segment :=
  [syncSeg b, blankSeg b, scanSeg b l 0, scanSeg b l 1, scanSeg b l 2]

/-- `Body` of a family (R192 to R195). -/
def body (fam : Family) (b : BodyInput) : List Segment :=
  match fam with
  | .martin => (List.range b.lines).flatMap (martinLine b)
  | .scottie => syncSeg b :: (List.range b.lines).flatMap (scottieLine b)
  | .pd => (List.range (b.lines / 2)).flatMap (pdPair b)
  | .wrasse => (List.range b.lines).flatMap (wrasseLine b)

/-- The scheduler's input from the registers and a prepared image (R190). -/
def bodyInput (s : State) (prep : List (List (List Freq))) : BodyInput where
  lines  := s.numLines.toNat
  pixels := s.hPixels.toNat
  tSync  := s.tSync.toNat
  tBlank := s.tBlank.toNat
  tScan  := s.tScan.toNat
  prep   := prep

/-- `PREP` from the registers and the pixels (R170, R175). -/
def prepared (fam : Family) (s : State) : List (List (List Freq)) :=
  prepare s.params.num fam s.pix s.numLines.toNat s.hPixels.toNat

/-- `SCHED = Header(VIS_CODE) ++ Body`, the same for both projections (R191, R12). -/
def schedule (fam : Family) (s : State) : List Segment :=
  header s.visCode ++ body fam (bodyInput s (prepared fam s))

/-- `T`, the sum of the durations of a schedule (R197). -/
def totalDuration (sched : List Segment) : Time := (sched.map segDuration).sum

/-- `L = floor(T * fs / 10^9)` (R221). -/
def sampleTotal (rate : Nat) (sched : List Segment) : Nat := totalDuration sched * rate / nsPerSecond

end Sys2Proof.Machine
end

