-- ==== Sys2Proof/Machine/Live.lean ====
section
/-! DEFINITION. The live projection (R198, R200): a segment becomes one record stamped with its start time. -/

namespace Sys2Proof.Machine

/-- The record of a segment that starts at `t` (R198). -/
def liveRecord (seg : Segment) (t : Time) : Record :=
  match seg with
  | .hold f _ => .set f t
  | .curve fs d => .curveAt fs t d

/-- The records of a schedule from time `t` on, without the closing `SPAN` (R198). -/
def liveRecords (t : Time) (sched : List Segment) : List Record :=
  match sched with
  | [] => []
  | seg :: rest => liveRecord seg t :: liveRecords (t + segDuration seg) rest

/-- One segment of the live walk: emit its record, add its duration to `T_ACC`, move on (R198). -/
def runLive (seg : Segment) (s : State) : State :=
  let s' := emitLive (liveRecord seg s.tAcc) s
  nextSegment { s' with tAcc := s.tAcc + segDuration seg }

/-- The whole live walk of `SCHED` at once (R198). -/
def projectLive (s : State) : State :=
  { s with
    outLive := s.outLive ++ liveRecords s.tAcc s.sched
    tAcc := s.tAcc + totalDuration s.sched
    segPtr := s.sched.length
    sub := 0
    j := 0 }

end Sys2Proof.Machine
end

