-- ==== Sys2Proof/Machine/Pcm.lean ====
section
/-! DEFINITION. The SampleSynthesizer (44_sample_synthesizer.md): samples by absolute index (R222 to R227), a segment
at a time and a sample at a time (R232). -/

namespace Sys2Proof.Machine

/-- What a sample depends on besides its frequency and index (R224): `NUM`, `N0` and the rate. -/
structure Synth where
  num  : Num
  n0   : Nat
  rate : Nat
  deriving DecidableEq, Repr

/-- The synthesizer of a state. -/
def synthOf (s : State) : Synth where
  num  := s.params.num
  n0   := s.params.n0
  rate := s.sampleRate.toNat

/-- The argument of the sine, in turns: `f * (N0 + n) / fs` (R224, R225). -/
def turns (c : Synth) (f : Freq) (n : Nat) : Rat := f * ((c.n0 + n : Nat) : Rat) / ((c.rate : Nat) : Rat)

/-- `Sample(f, n)` (R224). -/
def sample (c : Synth) (f : Freq) (n : Nat) : Amp := sinTurn c.num (turns c f n)

/-- `OUT_PCM` and `N` while a schedule is rendered (R228). -/
structure PcmBuf where
  samples : List Amp
  n       : Nat
  deriving DecidableEq, Repr

/-- `PcmWrite(N, Sample(f, N)) ; N <- N + 1` (R222). -/
def renderOne (c : Synth) (f : Freq) (b : PcmBuf) : PcmBuf where
  samples := pcmWrite b.samples b.n (sample c f b.n)
  n       := b.n + 1

/-- Repeat it `k` times (R222, R223). -/
def renderTimes (c : Synth) (f : Freq) (k : Nat) (b : PcmBuf) : PcmBuf :=
  match k with
  | 0 => b
  | k' + 1 => renderTimes c f k' (renderOne c f b)

/-- Each of the frequencies in turn, `k` samples each (R223). -/
def renderFreqs (c : Synth) (k : Nat) (fs : List Freq) (b : PcmBuf) : PcmBuf :=
  match fs with
  | [] => b
  | f :: rest => renderFreqs c k rest (renderTimes c f k b)

/-- A whole segment: R222 for a hold, R223 for a curve. -/
def renderSegment (c : Synth) (seg : Segment) (b : PcmBuf) : PcmBuf :=
  renderFreqs c (segSamples c.rate seg) (segFreqs seg) b

/-- A whole schedule (R228). -/
def renderAll (c : Synth) (sched : List Segment) (b : PcmBuf) : PcmBuf :=
  match sched with
  | [] => b
  | seg :: rest => renderAll c rest (renderSegment c seg b)

/-- `OUT_PCM` and `N` of a state. -/
def pcmBuf (s : State) : PcmBuf where
  samples := s.outPcm
  n       := s.n

/-- Put a rendered buffer back. -/
def withPcm (b : PcmBuf) (s : State) : State := { s with outPcm := b.samples, n := b.n }

/-- One segment of the sample walk, whole (R228). -/
def runPcmSegment (seg : Segment) (s : State) : State :=
  nextSegment (withPcm (renderSegment (synthOf s) seg (pcmBuf s)) s)

/-- After the sample at `(SUB, J)`: advance `J`, then `SUB` when `J = c`, then `SEG_PTR` when the segment is
exhausted (R232). -/
def advanceSample (seg : Segment) (s : State) : State :=
  if s.j + 1 < segSamples s.sampleRate.toNat seg then { s with j := s.j + 1 }
  else if s.sub + 1 < (segFreqs seg).length then { s with j := 0, sub := s.sub + 1 }
  else nextSegment s

/-- One step of the sample walk (R232): write the sample of `(SEG_PTR, SUB, J)` and advance; a segment that yields no
sample is skipped without writing. -/
def runPcmSample (seg : Segment) (s : State) : State :=
  if segSamples s.sampleRate.toNat seg = 0 then nextSegment s
  else
    match (segFreqs seg)[s.sub]? with
    | none => nextSegment s
    | some f => advanceSample seg (withPcm (renderOne (synthOf s) f (pcmBuf s)) s)

/-- The whole sample walk of `SCHED` at once (R228). -/
def projectPcm (s : State) : State :=
  let s' := withPcm (renderAll (synthOf s) s.sched (pcmBuf s)) s
  { s' with segPtr := s.sched.length, sub := 0, j := 0 }

end Sys2Proof.Machine
end

