-- ==== Sys2Proof/Machine/Encode.lean ====
section
/-! DEFINITION. The encode commands `ENC_HDR` (R159), `ENC_LIVE` (R199) and `ENC_PCM` (R228): the checks in their order
(R277), the building of `PREP` and `SCHED`, the projection, and the end of the command, at once or step by step (R9). -/

namespace Sys2Proof.Machine

/-- The checks of an encode command in their order (R277); the first that fails is the error reported. -/
def encodeError (c : EncCmd) (s : State) : Option ErrCode :=
  match c with
  | .hdr => none
  | _ =>
    if familyOf s.family = none then some .unsupportedFormatOperation
    else if s.numLines = 0 ∨ s.hPixels = 0 ∨ s.tScan = 0 then some .invalidParameter
    else if familyOf s.family = some .pd ∧ s.numLines.toNat % 2 = 1 then some .invalidParameter
    else if c = .pcm ∧ s.sampleRate = 0 then some .invalidParameter
    else if s.pixLen.toNat < 4 * s.numLines.toNat * s.hPixels.toNat then some .inputSizeMismatch
    else none

/-- `OUT_PCM <- L amplitudes, all 0` (R228); the live commands leave it empty. -/
def allocatePcm (c : EncCmd) (s : State) : State :=
  match c with
  | .hdr => s
  | .live => s
  | .pcm => { s with outPcm := List.replicate (sampleTotal s.sampleRate.toNat s.sched) (.value 0) }

/-- `PREP` and `SCHED` of an image (R191, R199, R228). Reading a byte that was never written is a fault (U3). -/
def buildImage (c : EncCmd) (fam : Family) (s : State) : Host.Outcome State Fault Refusal :=
  if imageWritten s.pix s.numLines.toNat s.hPixels.toNat then
    .next (allocatePcm c { s with prep := prepared fam s, sched := schedule fam s, phase := .project })
  else .fault .pixUnwritten

/-- What a command whose checks passed builds (R159, R199, R228). -/
def build (c : EncCmd) (s : State) : Host.Outcome State Fault Refusal :=
  match c with
  | .hdr => .next { s with sched := header s.visCode, phase := .project }
  | _ =>
    match familyOf s.family with
    | none => .next (raiseError .unsupportedFormatOperation s)
    | some fam => buildImage c fam s

/-- The first step after acceptance: the checks, then the building; nothing has been output yet (R277, R280). -/
def checkAndBuild (s : State) : Host.Outcome State Fault Refusal :=
  match encodeError s.running s with
  | some e => .next (raiseError e s)
  | none => build s.running s

/-- The counters at the end of a successful command (R159, R199, R228). -/
def setCounts (s : State) : State :=
  match s.running with
  | .hdr => { s with segCount := BitVec.ofNat 32 s.sched.length }
  | .live => { s with segCount := BitVec.ofNat 32 s.sched.length }
  | .pcm => { s with
      segCount := BitVec.ofNat 32 s.sched.length
      sampCount := BitVec.ofNat 64 (sampleTotal s.sampleRate.toNat s.sched)
      sampEmit := BitVec.ofNat 64 s.n }

/-- The end of a successful command: the counters, then `STATE <- DONE`. -/
def endCommand (s : State) : State := flagsDone (setCounts s)

/-- The projection of the whole of `SCHED` and the end of the command, the closing `SPAN` included (R198, R200, R228). -/
def projectAndEnd (s : State) : State :=
  match s.running with
  | .hdr => let s' := projectLive s; endCommand (emitLive (.span (startTime s') s'.tAcc) s')
  | .live => let s' := projectLive s; endCommand (emitLive (.span (startTime s') s'.tAcc) s')
  | .pcm => endCommand (projectPcm s)

/-- A command that is still running projects; one that has failed is over. -/
def projectIfBusy (s : State) : Host.Outcome State Fault Refusal :=
  if s.status = .busy then .next (projectAndEnd s) else .next s

/-- The body of an accepted encode command: all of it in the atomic view, the acceptance alone in the stepwise views,
where the engine's turns do the rest (R9, R280). -/
def encodeBody (c : EncCmd) (s : State) : Host.Outcome State Fault Refusal :=
  match s.view with
  | .atomic => andThen (checkAndBuild { s with running := c, phase := .checks }) projectIfBusy
  | .segment => .next { s with running := c, phase := .checks }
  | .sample => .next { s with running := c, phase := .checks }

/-- `ENC_HDR` (R159). -/
def execEncHdr (s : State) : Host.Outcome State Fault Refusal := runCommand (encodeBody .hdr) s

/-- `ENC_LIVE` (R199). -/
def execEncLive (s : State) : Host.Outcome State Fault Refusal := runCommand (encodeBody .live) s

/-- `ENC_PCM` (R228). -/
def execEncPcm (s : State) : Host.Outcome State Fault Refusal := runCommand (encodeBody .pcm) s

end Sys2Proof.Machine
end

