-- ==== Sys2Proof/Machine/Segments.lean ====
section
/-! DEFINITION. The schedule segments as instructions (30_encoding.md R90 b): `HOLD` (R150) and `CURVE` (R190), executed
by the live emitter or by the sample synthesizer, whichever the running command projects to. -/

namespace Sys2Proof.Machine

/-- The instruction a segment of `SCHED` is (R95). -/
def segmentInstr (seg : Segment) : Instr :=
  match seg with
  | .hold f d => .hold f d
  | .curve fs d => .curve fs d

/-- Execute one segment: R198 in a live command; in `ENC_PCM` R222 and R223 whole, or one sample of it in the view of
R232. -/
def runSegment (seg : Segment) (s : State) : State :=
  match s.running with
  | .hdr => runLive seg s
  | .live => runLive seg s
  | .pcm =>
    match s.view with
    | .atomic => runPcmSegment seg s
    | .segment => runPcmSegment seg s
    | .sample => runPcmSample seg s

/-- `HOLD f, d` (R150, R198, R222, R232). -/
def execHold (f : Freq) (d : Time) (s : State) : Host.Outcome State Fault Refusal :=
  .next (runSegment (.hold f d) s)

/-- `CURVE fs, d` (R190, R198, R223, R232). -/
def execCurve (fs : List Freq) (d : Time) (s : State) : Host.Outcome State Fault Refusal :=
  .next (runSegment (.curve fs d) s)

end Sys2Proof.Machine
end

