-- ==== Sys2Proof/Machine/Records.lean ====
section
/-! DEFINITION. The live records as instructions (30_encoding.md R90 c): the block executes a record by appending it to
`OUT_LIVE` (R8, R96, R198, R200); playing it is the external oscillator's (R3 b, R286). -/

namespace Sys2Proof.Machine

/-- The instruction a record of `OUT_LIVE` is (R96). -/
def recordInstr (r : Record) : Instr :=
  match r with
  | .set f t => .set f t
  | .curveAt fs t d => .curveAt fs t d
  | .span start stop => .span start stop

/-- `SET f @ t` (R198). -/
def execSet (f : Freq) (t : Time) (s : State) : Host.Outcome State Fault Refusal := .next (emitLive (.set f t) s)

/-- `CURVE_AT fs @ t for d` (R198). -/
def execCurveAt (fs : List Freq) (t d : Time) (s : State) : Host.Outcome State Fault Refusal :=
  .next (emitLive (.curveAt fs t d) s)

/-- `SPAN start, stop` (R200). -/
def execSpan (start stop : Time) (s : State) : Host.Outcome State Fault Refusal :=
  .next (emitLive (.span start stop) s)

end Sys2Proof.Machine
end

