-- ==== Sys2Proof/Machine/System.lean ====
section
/-! DEFINITION. The system operations of 45_system_commands.md: `CLEAR` (R241), the reserved command words (R242), and
the reset input (R300). -/

namespace Sys2Proof.Machine

/-- `CLEAR`: acceptance, then `STATE <- IDLE` (R241). -/
def execClear (s : State) : Host.Outcome State Fault Refusal := runCommand (fun a => .next (flagsIdle a)) s

/-- A `CMD` write of a reserved word: acceptance, then the error (R242, U1). -/
def execReserved (s : State) : Host.Outcome State Fault Refusal :=
  runCommand (fun a => .next (raiseError .unsupportedFormatOperation a)) s

/-- The reset input (R300): the whole state of the block takes its reset value. The parameters, the view and the host's
own data are not the block's state and stay (log entry 11). -/
def resetBlock (s : State) : State :=
  { State.resetWith s.params with
    view := s.view, host := s.host, hostData := s.hostData, readFault := s.readFault }

end Sys2Proof.Machine
end

