-- ==== Sys2Proof/Machine/HostPort.lean ====
section
/-! DEFINITION. The host port (20_memory.md R64, 45_system_commands.md R243 to R246): the register map, register writes
other than to `CMD`, register reads, pixel writes and output reads. -/

namespace Sys2Proof.Machine

/-- A register of the map of R64. The last argument of a FREQ window is the word within it. -/
inductive Reg where
  | cmd | status | err | family | numLines | hPixels | tBlank | tScan | tSync | visCode | sampleRate
  | t0Lo | t0Hi | pixLen | line | hpos | segCount | sampCountLo | sampCountHi | sampEmitLo | sampEmitHi
  | estDurLo | estDurHi
  | freq0 (i : Nat)
  | freq1 (i : Nat)
  | freq2 (i : Nat)
  | reserved
  deriving DecidableEq, Repr

/-- The register at a byte offset (R64); unaligned and unlisted offsets are reserved. -/
def regAt (offset : Nat) : Reg :=
  match offset with
  | 0x00 => .cmd
  | 0x04 => .status
  | 0x08 => .err
  | 0x0C => .family
  | 0x10 => .numLines
  | 0x14 => .hPixels
  | 0x18 => .tBlank
  | 0x1C => .tScan
  | 0x20 => .tSync
  | 0x24 => .visCode
  | 0x28 => .sampleRate
  | 0x2C => .t0Lo
  | 0x30 => .t0Hi
  | 0x34 => .pixLen
  | 0x38 => .line
  | 0x3C => .hpos
  | 0x40 => .segCount
  | 0x44 => .sampCountLo
  | 0x48 => .sampCountHi
  | 0x4C => .sampEmitLo
  | 0x50 => .sampEmitHi
  | 0x54 => .estDurLo
  | 0x58 => .estDurHi
  | 0x60 => .freq0 0
  | 0x64 => .freq0 1
  | 0x68 => .freq0 2
  | 0x6C => .freq0 3
  | 0x70 => .freq1 0
  | 0x74 => .freq1 1
  | 0x78 => .freq1 2
  | 0x7C => .freq1 3
  | 0x80 => .freq2 0
  | 0x84 => .freq2 1
  | 0x88 => .freq2 2
  | 0x8C => .freq2 3
  | _ => .reserved

/-- The register a host access reaches: only a 32-bit access reaches one (R64, 92 D31). -/
def regOf (offset : Nat) (width : AccessWidth) : Reg :=
  match width with
  | .byte => .reserved
  | .half => .reserved
  | .word => regAt offset
  | .double => .reserved

/-- `PIX_LEN` takes the value written, or `PIXMEM_BYTES` where that is less (R30, R243). -/
def clampPixLen (bound : Nat) (v : Word) : Word := BitVec.ofNat 32 (min v.toNat bound)

/-- A write that is not to `CMD` stores the bits of the register's field; one to a read-only or reserved offset is
ignored (R243, R51). A write to `CMD` stores nothing (R32); `commandWrite` runs it. -/
def writeReg (r : Reg) (v : Word) (s : State) : State :=
  match r with
  | .family => { s with family := v.setWidth 3 }
  | .numLines => { s with numLines := v.setWidth 16 }
  | .hPixels => { s with hPixels := v.setWidth 16 }
  | .tBlank => { s with tBlank := v }
  | .tScan => { s with tScan := v }
  | .tSync => { s with tSync := v }
  | .visCode => { s with visCode := v.setWidth 7 }
  | .sampleRate => { s with sampleRate := v }
  | .t0Lo => { s with t0Lo := v }
  | .t0Hi => { s with t0Hi := v.setWidth 31 }
  | .pixLen => { s with pixLen := clampPixLen s.params.pixmemBytes v }
  | .line => { s with line := v.setWidth 16 }
  | .hpos => { s with hpos := v.setWidth 16 }
  | .cmd => s
  | .status => s
  | .err => s
  | .segCount => s
  | .sampCountLo => s
  | .sampCountHi => s
  | .sampEmitLo => s
  | .sampEmitHi => s
  | .estDurLo => s
  | .estDurHi => s
  | .freq0 _ => s
  | .freq1 _ => s
  | .freq2 _ => s
  | .reserved => s

/-- Word `i` of a FREQ window, low word first (R64, R73; log entry 6). -/
def freqWord (num : Num) (r : FreqReg) (i : Nat) : Word := (Config.freqRepr num r.value).extractLsb' (32 * i) 32

/-- What a register reads (R244): its field zero-extended; `CMD` and reserved offsets read 0. -/
def readReg (r : Reg) (s : State) : Word :=
  match r with
  | .cmd => 0
  | .status => statusWord s.status
  | .err => errWord s.err
  | .family => s.family.setWidth 32
  | .numLines => s.numLines.setWidth 32
  | .hPixels => s.hPixels.setWidth 32
  | .tBlank => s.tBlank
  | .tScan => s.tScan
  | .tSync => s.tSync
  | .visCode => s.visCode.setWidth 32
  | .sampleRate => s.sampleRate
  | .t0Lo => s.t0Lo
  | .t0Hi => s.t0Hi.setWidth 32
  | .pixLen => s.pixLen
  | .line => s.line.setWidth 32
  | .hpos => s.hpos.setWidth 32
  | .segCount => s.segCount
  | .sampCountLo => loWord s.sampCount.toNat
  | .sampCountHi => hiWord s.sampCount.toNat
  | .sampEmitLo => loWord s.sampEmit.toNat
  | .sampEmitHi => hiWord s.sampEmit.toNat
  | .estDurLo => loWord (estDur s)
  | .estDurHi => hiWord (estDur s)
  | .freq0 i => freqWord s.params.num s.freq0 i
  | .freq1 i => freqWord s.params.num s.freq1 i
  | .freq2 i => freqWord s.params.num s.freq2 i
  | .reserved => 0

/-- A read of this register is one that U4 gives the treatment `fault`: a `FREQ` window nothing has written (R38). -/
def readsUnwritten (r : Reg) (s : State) : Bool :=
  match r with
  | .freq0 _ => !s.freq0.written
  | .freq1 _ => !s.freq1.written
  | .freq2 _ => !s.freq2.written
  | _ => false

/-- `RD`: the host gets the word; nothing of the block changes, in any state (R244, R306). The read of U4 is recorded, and
the word is that of the value the register holds (log entry 7). -/
def hostRead (offset : Nat) (width : AccessWidth) (s : State) : State :=
  { s with
    hostData := .word (readReg (regOf offset width) s)
    readFault := s.readFault || readsUnwritten (regOf offset width) s }

/-- `PIX addr: bytes`: dropped while `BUSY` (R245, R306). -/
def hostPixels (addr : Nat) (bytes : List Byte) (s : State) : State :=
  if s.status = .busy then s else pixWriteBytes s addr bytes

/-- A read of one record of `OUT_LIVE` (R66, R246). -/
def hostReadLive (index : Nat) (s : State) : State :=
  { s with hostData := (s.outLive[index]?).elim .nothing .record }

/-- The samples a host can see: while `BUSY` the prefix produced so far (R306), else the whole buffer. -/
def visiblePcm (s : State) : List Amp := if s.status = .busy then s.outPcm.take s.n else s.outPcm

/-- A read of one sample of `OUT_PCM` (R67, R246, R306). -/
def hostReadPcm (index : Nat) (s : State) : State :=
  { s with hostData := ((visiblePcm s)[index]?).elim .nothing .sample }

/-- `WR64 T0, v` (R102). -/
def wr64T0 (v : Nat) : List HostMove := [.write 0x2C .word (loWord v), .write 0x30 .word (hiWord v)]

end Sys2Proof.Machine
end

