-- ==== Sys2Proof/Machine/Dispatch.lean ====
section
/-! DEFINITION. One arm per instruction, each one call of its meaning. -/

namespace Sys2Proof.Machine

def exec (i : Instr) (s : State) : Host.Outcome State Fault Refusal :=
  match i with
  -- commands (format CMDW)
  | .clear => Sys2Proof.Machine.execClear s
  | .mapGrey => Sys2Proof.Machine.execMapGrey s
  | .mapRgb => Sys2Proof.Machine.execMapRgb s
  | .mapYc => Sys2Proof.Machine.execMapYc s
  | .encHdr => Sys2Proof.Machine.execEncHdr s
  | .encLive => Sys2Proof.Machine.execEncLive s
  | .encPcm => Sys2Proof.Machine.execEncPcm s
  -- schedule segments (format SEG)
  | .hold f d => Sys2Proof.Machine.execHold f d s
  | .curve fs d => Sys2Proof.Machine.execCurve fs d s
  -- live records (format REC)
  | .set f t => Sys2Proof.Machine.execSet f t s
  | .curveAt fs t d => Sys2Proof.Machine.execCurveAt fs t d s
  | .span start stop => Sys2Proof.Machine.execSpan start stop s

end Sys2Proof.Machine
end

