-- ==== Sys2Proof/Machine/Engine.lean ====
section
/-! DEFINITION. The turns of the two agents (R9): what a host move does, and what the engine does when it has the turn.
Both reach an instruction's meaning through `exec`. -/

namespace Sys2Proof.Machine

/-- A write of `w` to `CMD`: the command of that opcode, or the reserved case (R32, R91, R240, R242). -/
def commandWrite (w : Word) (s : State) : Host.Outcome State Fault Refusal :=
  match decodeCommand w with
  | some i => exec i s
  | none => execReserved s

/-- `WR`: dropped while `BUSY`; a command at `CMD`; a field elsewhere (R240, R243, R306). -/
def hostWrite (offset : Nat) (width : AccessWidth) (v : Word) (s : State) : Host.Outcome State Fault Refusal :=
  if s.status = .busy then .next s
  else if regOf offset width = .cmd then commandWrite v s
  else .next (writeReg (regOf offset width) v s)

/-- The end of the schedule: a live command runs its closing `SPAN` first (R198, R200), then the command ends. -/
def engineEnd (s : State) : Host.Outcome State Fault Refusal :=
  match s.running with
  | .hdr => andThen (exec (.span (startTime s) s.tAcc) s) fun s' => .next (endCommand s')
  | .live => andThen (exec (.span (startTime s) s.tAcc) s) fun s' => .next (endCommand s')
  | .pcm => .next (endCommand s)

/-- Run the segment at `SEG_PTR`; one that is no well-formed instruction is refused (R95, R98, U5). -/
def engineSegment (seg : Segment) (s : State) : Host.Outcome State Fault Refusal :=
  if (segmentInstr seg).flaw = none then exec (segmentInstr seg) s else .refused .illFormedSegment

/-- The engine's turn: nothing unless a command is running (R301); the checks and the building; one segment or sample;
the end of the command (R202, R232, R280). -/
def engineTurn (s : State) : Host.Outcome State Fault Refusal :=
  match s.status with
  | .idle => .next s
  | .done => .next s
  | .error => .next s
  | .busy =>
    match s.phase with
    | .checks => checkAndBuild s
    | .project =>
      match s.sched[s.segPtr]? with
      | some seg => engineSegment seg s
      | none => engineEnd s

/-- The turn of a host whose next move is `m`; `s` still holds that move, `popped` no longer does. -/
def hostTurn (m : HostMove) (s popped : State) : Host.Outcome State Fault Refusal :=
  match m with
  | .write offset width v => hostWrite offset width v popped
  | .read offset width => .next (hostRead offset width popped)
  | .pixels addr bytes => .next (hostPixels addr bytes popped)
  | .readLive index => .next (hostReadLive index popped)
  | .readPcm index => .next (hostReadPcm index popped)
  | .yield => engineTurn popped
  | .await => if s.status = .busy then engineTurn s else .next popped
  | .reset => .next (resetBlock popped)

/-- One turn: the host's next move if it has one, else the engine's (R9; log entry 9). -/
def turn (s : State) : Host.Outcome State Fault Refusal :=
  match s.host with
  | [] => engineTurn s
  | m :: rest => hostTurn m s { s with host := rest }

/-- `s` about to project the one segment `seg` from time `t` in the command `c`: the engine's next turn runs it. -/
def placeSegment (c : EncCmd) (seg : Segment) (t : Time) (s : State) : State :=
  { s with
    host := .yield :: s.host, status := .busy, phase := .project, running := c,
    sched := [seg], segPtr := 0, sub := 0, j := 0, tAcc := t }

/-- `s` about to close a live schedule that starts at `start` and stops at `stop`: the engine's next turn runs the
`SPAN`. -/
def placeSpan (start stop : Time) (s : State) : State :=
  { s with
    host := .yield :: s.host, status := .busy, phase := .project, running := .live,
    sched := [], segPtr := 0, sub := 0, j := 0, tAcc := stop,
    t0Lo := BitVec.ofNat 32 start, t0Hi := BitVec.ofNat 31 (start / 2 ^ 32) }

/-- `s` about to write `w` to `CMD`, with no command running. -/
def placeCommand (w : Word) (s : State) : State :=
  { s with
    host := .write 0x00 .word w :: s.host
    status := if s.status = .busy then .idle else s.status }

/-- Put an instruction where the block runs it next (log entry 17): a command as the host's next `CMD` write of `w`; a
segment as the one of `SCHED`, in `ENC_PCM`; a record as the segment that `ENC_LIVE` projects to it. -/
def placeInstr (w : Word) (i : Option Instr) (s : State) : State :=
  match i with
  | some (.hold f d) => placeSegment .pcm (.hold f d) s.tAcc s
  | some (.curve fs d) => placeSegment .pcm (.curve fs d) s.tAcc s
  | some (.set f t) => placeSegment .live (.hold f 0) t s
  | some (.curveAt fs t d) => placeSegment .live (.curve fs d) t s
  | some (.span start stop) => placeSpan start stop s
  | some .clear => placeCommand w s
  | some .mapGrey => placeCommand w s
  | some .mapRgb => placeCommand w s
  | some .mapYc => placeCommand w s
  | some .encHdr => placeCommand w s
  | some .encLive => placeCommand w s
  | some .encPcm => placeCommand w s
  | none => placeCommand w s

end Sys2Proof.Machine
end

