-- ==== Sys2Proof/Machine/Step.lean ====
section
/-! DEFINITION. One step of the machine, with its three outcomes, and the placing of an opcode-table word where the next
step runs it. -/

namespace Sys2Proof.Machine

/-- One step: one turn of the host or of the engine (R9). -/
def step (s : State) : Host.Outcome State Fault Refusal := turn s

/-- The step as a function of the parameters and of the block's state alone (R47, U10): `step` for a host that can pass it
no second argument. -/
def blockStep (p : Params) (b : Block) : Host.Outcome Block Fault Refusal :=
  match step { b with params := p } with
  | .next t => .next t.toBlock
  | .fault r => .fault r
  | .refused r => .refused r

/-- `s` with the instruction of a row's word placed where the next step runs it (log entry 17). -/
def State.withFetchWord (s : State) (nbits w : Nat) : State :=
  placeInstr (BitVec.ofNat 32 w) (decodeTableWord nbits w) s

end Sys2Proof.Machine
end

