-- ==== Sys2Proof/Machine/Wav.lean ====
section
/-! DEFINITION. The container function of 46_wav_container.md, run by the host on `OUT_PCM` outside the block (R3 c): a
44-byte header and 16-bit samples (R260 to R263). No command and no step uses it. The exact sine's code is a floor of a real
number, so what rests on it is not for evaluation (log entry 21). -/

namespace Sys2Proof.Machine

/-- The low `k` bytes of `v`, low byte first (R261, R262). -/
def bytesLE (k v : Nat) : List Byte := (List.range k).map fun i => BitVec.ofNat 8 (v / 256 ^ i)

/-- `clamp(s, -1, 1)` (R263). -/
def clampUnit (r : Rat) : Rat := max (-1) (min 1 r)

/-- `q(s)` of a rational: `round((0.5 + 0.5 * clamp(s, -1, 1)) * 65535)`, halves up (R263, 92 D34). -/
def quantizeRat (r : Rat) : Nat := (Rat.floor ((1 / 2 + 1 / 2 * clampUnit r) * 65535 + 1 / 2)).toNat

/-- `q(s)` of an amplitude (R263); a sine needs no clamp. -/
noncomputable def quantize (a : Amp) : Nat :=
  match a with
  | .value r => quantizeRat r
  | .sine q => ⌊(1 / 2 + 1 / 2 * Real.sin (2 * Real.pi * q)) * 65535 + 1 / 2⌋₊

/-- ASCII codes of the four tags (R261). -/
def tagRiff : List Byte := [0x52, 0x49, 0x46, 0x46]
/-- `"WAVE"`. -/
def tagWave : List Byte := [0x57, 0x41, 0x56, 0x45]
/-- `"fmt "`. -/
def tagFmt : List Byte := [0x66, 0x6D, 0x74, 0x20]
/-- `"data"`. -/
def tagData : List Byte := [0x64, 0x61, 0x74, 0x61]

/-- The 44-byte header for `ch` channels at `sr` Hz of `n` samples each (R261). A value that its field cannot hold (a
length or a byte rate of 2^32 or more, a `ch` or `ch * 2` of 2^16 or more) leaves its low bytes there: DESIGN CHOICE, the
spec is silent (log entry 21). -/
def wavHeader (ch sr n : Nat) : List Byte :=
  tagRiff ++ bytesLE 4 (44 + n * ch * 2 - 8) ++ tagWave ++ tagFmt ++ bytesLE 4 16 ++ bytesLE 2 1 ++ bytesLE 2 ch
    ++ bytesLE 4 sr ++ bytesLE 4 (sr * 2 * ch) ++ bytesLE 2 (ch * 2) ++ bytesLE 2 16 ++ tagData
    ++ bytesLE 4 (n * ch * 2)

/-- The two bytes of channel `c` of sample `i` (R262). -/
noncomputable def wavSample (channels : List (List Amp)) (i c : Nat) : List Byte :=
  bytesLE 2 (quantize ((channels.getD c []).getD i (.value 0)))

/-- `Wav(channels, sampleRate, samples)` for channels of `n` samples each (R260 to R263). Whether the serializer raises
an error for `sr = 0` or `ch = 0` is open (R265, 91 N24): this function checks neither and yields bytes, DESIGN CHOICE (log
entry 21). -/
noncomputable def wav (sr n : Nat) (channels : List (List Amp)) : List Byte :=
  wavHeader channels.length sr n
    ++ (List.range n).flatMap fun i => (List.range channels.length).flatMap fun c => wavSample channels i c

/-- The container of the block's own output (R260): one channel, `SAMPLE_RATE`, `OUT_PCM`. -/
noncomputable def wavOf (s : State) : List Byte := wav s.sampleRate.toNat s.outPcm.length [s.outPcm]

end Sys2Proof.Machine
end

