-- ==== Sys2Proof/Safety.lean ====
section
/-! DEFINITION. What claims call a good state, and what they call a stop. Each predicate is an invariant of `step`. -/

namespace Sys2Proof.Machine

/-- A step's outcome is a next state. -/
abbrev goesOn (o : Host.Outcome State Fault Refusal) : Prop := ∃ t, o = .next t

/-- The parameter is in range, pixel memory is in its canonical form and inside the populated memory, and `PIX_LEN`
is a legal length (R5, R30, R46). -/
def State.PixInv (s : State) : Prop :=
  0 < s.params.pixmemBytes ∧ s.params.pixmemBytes < 2 ^ 32 ∧ Memory.wf s.pix = true ∧
    Memory.below s.params.pixmemBytes s.pix = true ∧ s.pixLen.toNat ≤ s.params.pixmemBytes

/-- Both outputs are empty. -/
abbrev State.OutputsEmpty (s : State) : Prop := s.outLive = [] ∧ s.outPcm = []

/-- The three counters are 0. -/
abbrev State.CountersZero (s : State) : Prop := s.segCount = 0 ∧ s.sampCount = 0 ∧ s.sampEmit = 0

/-- What the status says of the rest: the error code (R34), and where outputs and counters must be empty: in `IDLE`
and `ERROR` (R33, R274), while `BUSY` (R240), before the checks are done (R280); the two outputs are never both filled
(R159, R199, R228). -/
def State.StatusInv (s : State) : Prop :=
  (s.err ≠ .none ↔ s.status = .error) ∧
  (s.status = .idle ∨ s.status = .error → s.OutputsEmpty ∧ s.CountersZero) ∧
  (s.status = .busy → s.CountersZero) ∧
  (s.status = .busy → s.phase = .checks → s.OutputsEmpty) ∧
  (s.status = .busy → s.running = .pcm → s.outLive = []) ∧
  (s.status = .busy → s.running ≠ .pcm → s.outPcm = []) ∧
  (s.outLive = [] ∨ s.outPcm = [])

/-- Every segment of `SCHED` is a well-formed instruction (R43, R95). -/
def State.SchedInv (s : State) : Prop := ∀ seg ∈ s.sched, (segmentInstr seg).WellFormed

/-- Every sample lies in [-1, 1] (R45, R229). -/
def State.AmpInv (s : State) : Prop := ∀ a ∈ s.outPcm, ∀ x, ampIs a x → -1 ≤ x ∧ x ≤ 1

/-- Every record of `OUT_LIVE` is a well-formed instruction, so its times fit their 64-bit fields (R96). -/
def State.RecordInv (s : State) : Prop := ∀ r ∈ s.outLive, (recordInstr r).WellFormed

/-- The samples a segment yields in all (R222, R223). -/
def segYield (rate : Nat) (seg : Segment) : Nat := (segFreqs seg).length * segSamples rate seg

/-- The samples a schedule yields in all: `N_end` of R226. -/
def schedYield (rate : Nat) (sched : List Segment) : Nat := (sched.map (segYield rate)).sum

/-- The samples rendered when the engine stands at `(SEG_PTR, SUB, J)` (R232). -/
def samplesAt (s : State) : Nat :=
  schedYield s.sampleRate.toNat (s.sched.take s.segPtr) +
    match s.sched[s.segPtr]? with
    | some seg => s.sub * segSamples s.sampleRate.toNat seg + s.j
    | none => 0

/-- `(SUB, J)` is a place inside the segment at `SEG_PTR` (R39): its beginning, or in the view of R232 any sample of
it. -/
def State.PlaceInv (s : State) : Prop :=
  (s.sub = 0 ∧ s.j = 0) ∨
    (s.view = .sample ∧
      ∃ seg, s.sched[s.segPtr]? = some seg ∧ s.sub < (segFreqs seg).length ∧
        s.j < segSamples s.sampleRate.toNat seg)

/-- The sequencer of a running live command: `T_ACC` is the start time plus the durations projected so far (R41), and
the sample counters are untouched. -/
def State.LivePosition (s : State) : Prop :=
  s.sub = 0 ∧ s.j = 0 ∧ s.n = 0 ∧
    s.tAcc + totalDuration (s.sched.drop s.segPtr) = startTime s + totalDuration s.sched

/-- The sequencer of a running `ENC_PCM`: `N` counts the samples rendered so far (R40, R225), and the buffer has the
length of R221. -/
def State.PcmPosition (s : State) : Prop :=
  s.tAcc = startTime s ∧ s.n = samplesAt s ∧ s.PlaceInv ∧
    s.outPcm.length = sampleTotal s.sampleRate.toNat s.sched

/-- The sequencer while a command runs: at 0 and at `T0` before the checks (R240); then inside a schedule of at most
524302 segments (R35) shorter than 2^52 ns (R36). -/
def State.SeqInv (s : State) : Prop :=
  s.status = .busy →
    (s.phase = .checks → s.segPtr = 0 ∧ s.sub = 0 ∧ s.j = 0 ∧ s.n = 0 ∧ s.tAcc = startTime s) ∧
    (s.phase = .project →
      s.segPtr ≤ s.sched.length ∧ s.sched.length ≤ 524302 ∧ totalDuration s.sched < 2 ^ 52 ∧
        (s.running ≠ .pcm → s.LivePosition) ∧ (s.running = .pcm → s.PcmPosition))

/-- After a command the buffer's length is `SAMP_COUNT`, and `SAMP_EMIT` is at most that (R36). -/
abbrev State.CountInv (s : State) : Prop :=
  s.status = .done → s.outPcm.length = s.sampCount.toNat ∧ s.sampEmit.toNat ≤ s.sampCount.toNat

/-- The position of the engine fits the widths of R39 to R41 while a schedule is projected. -/
def State.WidthInv (s : State) : Prop :=
  s.status = .busy → s.phase = .project →
    s.segPtr < 2 ^ 32 ∧ s.sub < 2 ^ 16 ∧ s.j < 2 ^ 64 ∧ s.n < 2 ^ 64 ∧ s.tAcc < 2 ^ 64

end Sys2Proof.Machine
end

