-- ==== Sys2Proof/Certificates/Slice0/Obligations.lean ====
section
/-! DEFINITION. The statements for the provers, each from a numbered rule of spec/. -/

namespace Sys2Proof.Claims

open Sys2Proof.Machine

/-! ## What the statements share, written from the rules and not from the meanings -/

/-- The state a command leaves when it ends with nothing but its status: what acceptance (R240) and `raise` (R274)
change, and no more. -/
abbrev cleared (st : RunState) (e : ErrCode) (s : State) : State :=
  { s with
    status := st, err := e, outLive := [], outPcm := [], segCount := 0, sampCount := 0, sampEmit := 0,
    segPtr := 0, sub := 0, j := 0, n := 0, tAcc := s.t0Hi.toNat * 2 ^ 32 + s.t0Lo.toNat }

/-- The tag of a family (R93). -/
abbrev familyTag (fam : Family) : Nat :=
  match fam with
  | .martin => 1
  | .scottie => 2
  | .pd => 3
  | .wrasse => 4

/-- The byte address of the pixel `MAP_*` addresses (R99). -/
abbrev mapBase (s : State) : Nat := s.line.toNat * (s.hPixels.toNat * 4) + s.hpos.toNat * 4

/-- The three colour bytes at `a` are these (R61). -/
abbrev coloursAt (s : State) (a : Nat) (red green blue : Byte) : Prop :=
  memRead s.pix a = some red ∧ memRead s.pix (a + 1) = some green ∧ memRead s.pix (a + 2) = some blue

/-- The checks of an encode command pass: the negations of the conditions of R277. -/
abbrev ChecksPass (c : EncCmd) (fam : Family) (s : State) : Prop :=
  s.family.toNat = familyTag fam ∧ s.numLines.toNat ≠ 0 ∧ s.hPixels.toNat ≠ 0 ∧ s.tScan.toNat ≠ 0 ∧
    (fam = .pd → s.numLines.toNat % 2 = 0) ∧ (c = .pcm → s.sampleRate.toNat ≠ 0) ∧
    4 * s.numLines.toNat * s.hPixels.toNat ≤ s.pixLen.toNat

/-- The byte address of channel `k` of the pixel `(l, x)` of the image (R61). -/
abbrev colourAddr (s : State) (l x k : Nat) : Nat := l * (s.hPixels.toNat * 4) + x * 4 + k

/-- The conditions under which an encode command succeeds: its checks pass, and every colour byte of the image is
written (R305 b). -/
abbrev Encodable (c : EncCmd) (fam : Family) (s : State) : Prop :=
  ChecksPass c fam s ∧
    ∀ l < s.numLines.toNat, ∀ x < s.hPixels.toNat, ∀ k < 3, (memRead s.pix (colourAddr s l x k)).isSome = true

/-- `len(SCHED)` of a family (R197). -/
abbrev segmentCount (fam : Family) (lines : Nat) : Nat :=
  match fam with
  | .martin => 21 + 8 * lines
  | .scottie => 22 + 7 * lines
  | .pd => 21 + 3 * lines
  | .wrasse => 21 + 5 * lines

/-- `T` of a family in ns (R197). -/
abbrev scheduleTime (fam : Family) (s : State) : Nat :=
  match fam with
  | .martin => 1710000000 + s.numLines.toNat * (s.tSync.toNat + 4 * s.tBlank.toNat + 3 * s.tScan.toNat)
  | .scottie =>
    1710000000 + s.tSync.toNat + s.numLines.toNat * (s.tSync.toNat + 3 * s.tBlank.toNat + 3 * s.tScan.toNat)
  | .pd => 1710000000 + s.numLines.toNat / 2 * (s.tSync.toNat + s.tBlank.toNat + 4 * s.tScan.toNat)
  | .wrasse => 1710000000 + s.numLines.toNat * (s.tSync.toNat + s.tBlank.toNat + 3 * s.tScan.toNat)

/-- The start times of the 21 header segments, in ms (R157). -/
abbrev headerStarts : List Nat :=
  [0, 100, 200, 300, 400, 500, 600, 700, 800, 1100, 1110, 1410, 1440, 1470, 1500, 1530, 1560, 1590, 1620, 1650, 1680]

/-- The tone of a VIS bit: 1100 Hz for 1, 1300 Hz for 0 (R99). -/
abbrev tone (b : Bool) : Freq := if b then 1100 else 1300

/-- The tones of the 21 header segments (R151 to R157). -/
abbrev headerTones (v : BitVec 7) : List Freq :=
  [1900, 1500, 1900, 1500, 2300, 1500, 2300, 1500, 1900, 1200, 1900, 1200, tone v[0], tone v[1], tone v[2], tone v[3],
   tone v[4], tone v[5], tone v[6], tone (v[0] ^^ v[1] ^^ v[2] ^^ v[3] ^^ v[4] ^^ v[5] ^^ v[6]), 1200]

/-- The durations of the 21 header segments, in ms (R151 to R156). -/
abbrev headerDurations : List Nat :=
  [100, 100, 100, 100, 100, 100, 100, 100, 300, 10, 300, 30, 30, 30, 30, 30, 30, 30, 30, 30, 30]

/-- The 21 segments of a header (R157). -/
abbrev headerSegments (v : BitVec 7) : List Segment :=
  List.zipWith (fun f d => Segment.hold f (d * 1000000)) (headerTones v) headerDurations

/-- The 21 records of a header that starts at `t` (R159). -/
abbrev headerRecords (v : BitVec 7) (t : Time) : List Record :=
  List.zipWith (fun f start => Record.set f (t + start * 1000000)) (headerTones v) headerStarts

/-- The value to frequency map of R131 under the numeric configuration. -/
abbrev freqOf (num : Num) (v : Rat) : Freq := rndF num (1500 + v * (31372549 / 10000000))

/-- The byte at an address, as a number. -/
abbrev byteAt (s : State) (a : Nat) : Nat := (memRead s.pix a).elim 0 BitVec.toNat

/-- The curve of a colour channel (byte `k` of each pixel) along line `l` (R171, R172, R190). -/
abbrev channelCurve (s : State) (l k : Nat) : Segment :=
  .curve ((List.range s.hPixels.toNat).map fun x =>
    freqOf s.params.num (byteAt s (l * (s.hPixels.toNat * 4) + x * 4 + k))) s.tScan.toNat

/-- The frequency of a value of R134 at the pixel `(l, x)` (R173). -/
abbrev valueFreq (s : State) (value : Nat → Nat → Nat → Rat) (l x : Nat) : Freq :=
  freqOf s.params.num (value (byteAt s (l * (s.hPixels.toNat * 4) + x * 4))
    (byteAt s (l * (s.hPixels.toNat * 4) + x * 4 + 1)) (byteAt s (l * (s.hPixels.toNat * 4) + x * 4 + 2)))

/-- The luma curve of line `l` (R174). -/
abbrev lumaCurve (s : State) (l : Nat) : Segment :=
  .curve ((List.range s.hPixels.toNat).map fun x => valueFreq s lumaValue l x) s.tScan.toNat

/-- The chroma curve of the pair `p`: frequency-domain averages (R174). -/
abbrev averageCurve (s : State) (value : Nat → Nat → Nat → Rat) (p : Nat) : Segment :=
  .curve ((List.range s.hPixels.toNat).map fun x =>
    rndF s.params.num ((valueFreq s value (2 * p) x + valueFreq s value (2 * p + 1) x) / 2)) s.tScan.toNat

/-- The sync and blanking holds (R190). -/
abbrev syncHold (s : State) : Segment := .hold 1200 s.tSync.toNat
abbrev blankHold (s : State) : Segment := .hold 1500 s.tBlank.toNat

/-- A command may have changed only its outputs, counters, status and sequencer, and the engine's own memories. -/
abbrev OnlyOutputs (s t : State) : Prop :=
  t = { s with
    status := t.status, err := t.err, segCount := t.segCount, sampCount := t.sampCount, sampEmit := t.sampEmit,
    segPtr := t.segPtr, sub := t.sub, j := t.j, n := t.n, tAcc := t.tAcc, prep := t.prep, sched := t.sched,
    outLive := t.outLive, outPcm := t.outPcm, running := t.running, phase := t.phase }

/-- The frequency of every sample of a schedule, in order (R222, R223). -/
def sampleFreqs (rate : Nat) (sched : List Segment) : List Freq :=
  sched.flatMap fun seg =>
    match seg with
    | .hold f d => List.replicate (d * rate / 1000000000) f
    | .curve fs d => fs.flatMap fun f => List.replicate (d * rate / (fs.length * 1000000000)) f

/-- `Sample(f, n)` of a state (R224). -/
abbrev sampleOf (s : State) (f : Freq) (n : Nat) : Amp :=
  sinTurn s.params.num (f * ((s.params.n0 + n : Nat) : Rat) / ((s.sampleRate.toNat : Nat) : Rat))

/-- The samples of frequencies `fs` at consecutive indices from `n` (R225). -/
def samplesFrom (s : State) (n : Nat) (fs : List Freq) : List Amp := fs.mapIdx fun i f => sampleOf s f (n + i)

/-- Two states with the same inputs of a command: registers, pixel bytes below `PIX_LEN` and configuration (R11). -/
structure SameInputs (s s' : State) : Prop where
  family      : s.family = s'.family
  numLines    : s.numLines = s'.numLines
  hPixels     : s.hPixels = s'.hPixels
  tBlank      : s.tBlank = s'.tBlank
  tScan       : s.tScan = s'.tScan
  tSync       : s.tSync = s'.tSync
  visCode     : s.visCode = s'.visCode
  sampleRate  : s.sampleRate = s'.sampleRate
  t0Lo        : s.t0Lo = s'.t0Lo
  t0Hi        : s.t0Hi = s'.t0Hi
  pixLen      : s.pixLen = s'.pixLen
  line        : s.line = s'.line
  hpos        : s.hpos = s'.hpos
  pixels      : ∀ a < s.pixLen.toNat, memRead s.pix a = memRead s'.pix a
  num         : s.params.num = s'.params.num
  n0          : s.params.n0 = s'.params.n0
  view        : s.view = s'.view

/-- The start time stamped in a record (R96). -/
def stampOf (r : Record) : Time :=
  match r with
  | .set _ t => t
  | .curveAt _ t _ => t
  | .span start _ => start

/-- The commands (R90 a). -/
abbrev isCommand (i : Instr) : Prop :=
  i = .clear ∨ i = .mapGrey ∨ i = .mapRgb ∨ i = .mapYc ∨ i = .encHdr ∨ i = .encLive ∨ i = .encPcm

/-- The host move is a write (R306). -/
def isWrite (m : HostMove) : Bool :=
  match m with
  | .write _ _ _ => true
  | .read _ _ => false
  | .pixels _ _ => true
  | .readLive _ => false
  | .readPcm _ => false
  | .yield => false
  | .await => false
  | .reset => false

/-- A field register of the map: its offset, what it holds, and the width of its field (R64). -/
abbrev fieldRegisters : List (Nat × (State → Nat) × Nat) :=
  [(0x0C, fun s => s.family.toNat, 3), (0x10, fun s => s.numLines.toNat, 16), (0x14, fun s => s.hPixels.toNat, 16),
   (0x18, fun s => s.tBlank.toNat, 32), (0x1C, fun s => s.tScan.toNat, 32), (0x20, fun s => s.tSync.toNat, 32),
   (0x24, fun s => s.visCode.toNat, 7), (0x28, fun s => s.sampleRate.toNat, 32), (0x2C, fun s => s.t0Lo.toNat, 32),
   (0x30, fun s => s.t0Hi.toNat, 31), (0x38, fun s => s.line.toNat, 16), (0x3C, fun s => s.hpos.toNat, 16)]

/-- Every readable word of the map but the FREQ windows: its offset and its value (R64, R73, R94). -/
abbrev readableWords : List (Nat × (State → Nat)) :=
  fieldRegisters.map (fun r => (r.1, r.2.1)) ++
  [(0x04, fun s => match s.status with | .idle => 0 | .busy => 1 | .done => 2 | .error => 3),
   (0x08, fun s => match s.err with
     | .none => 0 | .unsupportedFormatOperation => 1 | .inputSizeMismatch => 2 | .invalidParameter => 3),
   (0x34, fun s => s.pixLen.toNat), (0x40, fun s => s.segCount.toNat),
   (0x44, fun s => s.sampCount.toNat % 2 ^ 32), (0x48, fun s => s.sampCount.toNat / 2 ^ 32),
   (0x4C, fun s => s.sampEmit.toNat % 2 ^ 32), (0x50, fun s => s.sampEmit.toNat / 2 ^ 32),
   (0x54, fun s => s.numLines.toNat * (s.tScan.toNat + s.tBlank.toNat + 3 * s.tSync.toNat) % 2 ^ 32),
   (0x58, fun s => s.numLines.toNat * (s.tScan.toNat + s.tBlank.toNat + 3 * s.tSync.toNat) / 2 ^ 32)]

end Sys2Proof.Claims

open Sys2Proof Sys2Proof.Machine Sys2Proof.Claims

/-! ## Encoding -/

/-- R95, R96, R97, R103: decoding the encoding of a well-formed instruction gives it back, with the rest of the
stream untouched. -/
def Obligations.EncodeThenDecode : Prop :=
  ∀ (i : Instr) (rest : List Field), i.WellFormed → decode (encode i ++ rest) = .ok (i, rest)

/-- R97, R98, R103: whatever the decoder reads as an instruction is exactly that instruction's encoding. -/
def Obligations.DecodeThenEncode : Prop :=
  ∀ (fields rest : List Field) (i : Instr), decode fields = .ok (i, rest) → fields = encode i ++ rest

/-- R92, R95, R96: words written out bit by bit from the encoding tables. -/
def Obligations.DecodesWrittenOutWords : Prop :=
  decode [.word 0x00000000] = .ok (.clear, []) ∧ decode [.word 0x00000003] = .ok (.mapYc, []) ∧
  decode [.word 0x00000006] = .ok (.encPcm, []) ∧
  decode [.word 0x10000000, .freq 1200, .word 0x004C4B40, .word 0] = .ok (.hold 1200 5000000, []) ∧
  decode [.word 0x20000002, .word 1, .word 1, .freq 1500, .freq 1900]
    = .ok (.curve [1500, 1900] 4294967297, []) ∧
  decode [.word 0x80000000, .freq 1200, .word 0xA1875180, .word 0] = .ok (.set 1200 2710000000, []) ∧
  decode [.word 0x90000001, .word 0xA1E2DF00, .word 0, .word 0x003D0900, .word 0, .freq 1500]
    = .ok (.curveAt [1500] 2716000000 4000000, []) ∧
  decode [.word 0xA0000000, .word 0x3B9ACA00, .word 0, .word 0xA2C7C0C0, .word 0]
    = .ok (.span 1000000000 2731000000, [])

/-! ## What a step runs -/

/-- R32, R240: a step at a `CMD` write runs the command of that opcode, the move taken off the host's list. -/
def Obligations.StepRunsTheCommandWritten : Prop :=
  ∀ (s : State) (w : Word) (i : Instr) (rest : List HostMove),
    s.status ≠ .busy → s.host = .write 0x00 .word w :: rest → decode [.word w] = .ok (i, []) →
      step s = exec i { s with host := rest }

/-- R39, R198, R232: while a schedule is projected, the engine's turn runs the segment at `SEG_PTR`. -/
def Obligations.StepRunsTheSegmentAtSegPtr : Prop :=
  ∀ (s : State) (seg : Segment),
    s.status = .busy → s.phase = .project → s.sched[s.segPtr]? = some seg → (segmentInstr seg).WellFormed →
      (s.host = [] → step s = exec (segmentInstr seg) s) ∧
      (∀ rest, s.host = .yield :: rest → step s = exec (segmentInstr seg) { s with host := rest })

/-- R198, R200: when the schedule is exhausted, a live command's next turn runs the closing `SPAN` and ends the
command with `SEG_COUNT = len(SCHED)`. -/
def Obligations.LiveScheduleEndsWithSpan : Prop :=
  ∀ (s : State), s.status = .busy → s.phase = .project → s.running ≠ .pcm → s.sched.length ≤ s.segPtr → s.host = [] →
    step s = andThen (exec (.span (s.t0Hi.toNat * 2 ^ 32 + s.t0Lo.toNat) s.tAcc) s)
      (fun t => .next { t with status := .done, segCount := BitVec.ofNat 32 s.sched.length })

/-- R242: a `CMD` write of any word from 7 up raises `UnsupportedFormatOperation`. -/
def Obligations.ReservedCommandRaisesUnsupported : Prop :=
  ∀ (s : State) (w : Word) (rest : List HostMove),
    s.status ≠ .busy → s.host = .write 0x00 .word w :: rest → 7 ≤ w.toNat →
      step s = .next (cleared .error .unsupportedFormatOperation { s with host := rest })

/-! ## The commands -/

/-- R241: `CLEAR` leaves `IDLE` with outputs empty and counters 0, and changes no register of the host's, no `PIX`
byte and no `FREQ`; its word is 0. -/
def Obligations.ClearLeavesIdle : Prop :=
  decode [.word 0] = .ok (.clear, []) ∧
  ∀ (s : State), s.status ≠ .busy → exec .clear s = .next (cleared .idle .none s)

/-- R132, R62: `MAP_GREY` of a pixel in bounds, its error for one that is not, and its word. -/
def Obligations.MapGreyWritesFreq0 : Prop :=
  decode [.word 1] = .ok (.mapGrey, []) ∧
  (∀ (s : State), s.status ≠ .busy → s.pixLen.toNat ≤ mapBase s + 3 →
    exec .mapGrey s = .next (cleared .error .inputSizeMismatch s)) ∧
  ∀ (s : State) (red green blue : Byte),
    s.status ≠ .busy → mapBase s + 3 < s.pixLen.toNat → coloursAt s (mapBase s) red green blue →
      exec .mapGrey s = .next { cleared .done .none s with
        freq0 := { value := rndF s.params.num
                    ((299 * red.toNat + 587 * green.toNat + 114 * blue.toNat : Nat) / 1000 * (31372549 / 10000000)
                      + 1500)
                   written := true } }

/-- R133, R62: `MAP_RGB` of a pixel in bounds, its error for one that is not, and its word. -/
def Obligations.MapRgbWritesThreeChannels : Prop :=
  decode [.word 2] = .ok (.mapRgb, []) ∧
  (∀ (s : State), s.status ≠ .busy → s.pixLen.toNat ≤ mapBase s + 3 →
    exec .mapRgb s = .next (cleared .error .inputSizeMismatch s)) ∧
  ∀ (s : State) (red green blue : Byte),
    s.status ≠ .busy → mapBase s + 3 < s.pixLen.toNat → coloursAt s (mapBase s) red green blue →
      exec .mapRgb s = .next { cleared .done .none s with
        freq0 := { value := rndF s.params.num ((red.toNat : Rat) * (31372549 / 10000000) + 1500), written := true }
        freq1 := { value := rndF s.params.num ((green.toNat : Rat) * (31372549 / 10000000) + 1500), written := true }
        freq2 := { value := rndF s.params.num ((blue.toNat : Rat) * (31372549 / 10000000) + 1500), written := true } }

/-- R134, R62: `MAP_YC` of a pixel in bounds, its error for one that is not, and its word. -/
def Obligations.MapYcWritesLumaAndChroma : Prop :=
  decode [.word 3] = .ok (.mapYc, []) ∧
  (∀ (s : State), s.status ≠ .busy → s.pixLen.toNat ≤ mapBase s + 3 →
    exec .mapYc s = .next (cleared .error .inputSizeMismatch s)) ∧
  ∀ (s : State) (red green blue : Byte),
    s.status ≠ .busy → mapBase s + 3 < s.pixLen.toNat → coloursAt s (mapBase s) red green blue →
      let r : Rat := red.toNat
      let g : Rat := green.toNat
      let b : Rat := blue.toNat
      exec .mapYc s = .next { cleared .done .none s with
        freq0 := { value := freqOf s.params.num (6 + 3906 / 1000000 * (65738 * r + 129057 * g + 25064 * b) / 1000)
                   written := true }
        freq1 := { value := freqOf s.params.num (128 + 3906 / 1000000 * (112439 * r - 94154 * g - 18285 * b) / 1000)
                   written := true }
        freq2 := { value := freqOf s.params.num (128 + 3906 / 1000000 * (112439 * b - 37945 * r - 74494 * g) / 1000)
                   written := true } }

/-- U3 (93_implementation_defined.md), R63: a command that must read a colour byte nothing has written is a fault: a
`MAP_*` whose pixel is in bounds, and `ENC_LIVE` and `ENC_PCM` when their checks pass. In the stepwise views R280 puts the
checks first after acceptance; that the image is read in that same turn is the model's choice (DESIGN CHOICE, log entry 22),
and so are the fields phase and running that say which turn it is (log entry 13). -/
def Obligations.UnwrittenPixelFaults : Prop :=
  (∀ (s : State) (i : Instr) (k : Nat), i = .mapGrey ∨ i = .mapRgb ∨ i = .mapYc →
    s.status ≠ .busy → mapBase s + 3 < s.pixLen.toNat → k < 3 → memRead s.pix (mapBase s + k) = none →
      exec i s = .fault .pixUnwritten) ∧
  ∀ (s : State) (i : Instr) (c : EncCmd) (fam : Family) (l x k : Nat),
    (i = .encLive ∧ c = .live) ∨ (i = .encPcm ∧ c = .pcm) → ChecksPass c fam s →
    l < s.numLines.toNat → x < s.hPixels.toNat → k < 3 → memRead s.pix (colourAddr s l x k) = none →
      (s.status ≠ .busy → s.view = .atomic → exec i s = .fault .pixUnwritten) ∧
      (s.status = .busy → s.phase = .checks → s.running = c → s.host = [] → step s = .fault .pixUnwritten)

/-- R135: the exact ranges of the colour mappings over all byte values, with the bytes where they are reached; R132,
R134: a grey pixel's greyscale frequency is `Hz` of its value and its two chroma frequencies are `Hz(128)`. -/
def Obligations.ColourRangesAndNeutralGrey : Prop :=
  (∀ (v : Nat), grey v v v = 1500 + v * (31372549 / 10000000) ∧
    hz (redChromaValue v v v) = 148560049 / 78125 ∧ hz (blueChromaValue v v v) = 148560049 / 78125) ∧
  (grey 0 0 0 = 1500 ∧ grey 255 255 255 = 22999999995 / 10000000 ∧ hz (0 : Nat) = 1500 ∧
    hz (255 : Nat) = 22999999995 / 10000000 ∧
    lumaValue 0 0 0 = 6 ∧ lumaValue 255 255 255 = 22498615977 / 100000000 ∧
    redChromaValue 0 255 255 = 1600738283 / 100000000 ∧ redChromaValue 255 0 0 = 23999261717 / 100000000 ∧
    blueChromaValue 255 255 0 = 1600738283 / 100000000 ∧ blueChromaValue 0 0 255 = 23999261717 / 100000000 ∧
    hz (lumaValue 0 0 0) = 15188235294 / 10000000 ∧
    hz (lumaValue 255 255 255) = 2205838932170615373 / 1000000000000000 ∧
    hz (redChromaValue 0 255 255) = 1550219240219593367 / 1000000000000000 ∧
    hz (redChromaValue 255 0 0) = 2252918014180406633 / 1000000000000000 ∧
    hz (blueChromaValue 255 255 0) = 1550219240219593367 / 1000000000000000 ∧
    hz (blueChromaValue 0 0 255) = 2252918014180406633 / 1000000000000000) ∧
  ∀ (r g b : Nat), r ≤ 255 → g ≤ 255 → b ≤ 255 →
    1500 ≤ grey r g b ∧ grey r g b ≤ 22999999995 / 10000000 ∧
    1500 ≤ hz r ∧ hz r ≤ 22999999995 / 10000000 ∧
    6 ≤ lumaValue r g b ∧ lumaValue r g b ≤ 22498615977 / 100000000 ∧
    1600738283 / 100000000 ≤ redChromaValue r g b ∧ redChromaValue r g b ≤ 23999261717 / 100000000 ∧
    1600738283 / 100000000 ≤ blueChromaValue r g b ∧ blueChromaValue r g b ≤ 23999261717 / 100000000 ∧
    15188235294 / 10000000 ≤ hz (lumaValue r g b) ∧
    hz (lumaValue r g b) ≤ 2205838932170615373 / 1000000000000000 ∧
    1550219240219593367 / 1000000000000000 ≤ hz (redChromaValue r g b) ∧
    hz (redChromaValue r g b) ≤ 2252918014180406633 / 1000000000000000 ∧
    1550219240219593367 / 1000000000000000 ≤ hz (blueChromaValue r g b) ∧
    hz (blueChromaValue r g b) ≤ 2252918014180406633 / 1000000000000000

/-- R159, R157, R151 to R156: `ENC_HDR` builds the 21 header segments, emits their records and the `SPAN`, and succeeds
in every state that is not `BUSY`; its word is 4. -/
def Obligations.EncHdrEmitsTheHeader : Prop :=
  decode [.word 4] = .ok (.encHdr, []) ∧
  ∀ (s : State), s.status ≠ .busy → s.view = .atomic →
    ∃ t, exec .encHdr s = .next t ∧ t.status = .done ∧ t.err = .none ∧ t.segCount = 21 ∧ t.sampCount = 0 ∧
      t.sampEmit = 0 ∧ t.outPcm = [] ∧ OnlyOutputs s t ∧ t.prep = s.prep ∧
      t.sched = headerSegments s.visCode ∧
      t.outLive =
        headerRecords s.visCode (s.t0Hi.toNat * 2 ^ 32 + s.t0Lo.toNat) ++
          [.span (s.t0Hi.toNat * 2 ^ 32 + s.t0Lo.toNat) (s.t0Hi.toNat * 2 ^ 32 + s.t0Lo.toNat + 1710000000)]

/-- R199, R197, R200: when the checks pass, `ENC_LIVE` succeeds with the counts and times of R197 and touches nothing
but its outputs. -/
def Obligations.EncLiveSucceeds : Prop :=
  ∀ (s : State) (fam : Family), s.status ≠ .busy → s.view = .atomic → Encodable .live fam s →
    ∃ t, exec .encLive s = .next t ∧ t.status = .done ∧ t.err = .none ∧
      t.segCount.toNat = segmentCount fam s.numLines.toNat ∧
      t.outLive.length = segmentCount fam s.numLines.toNat + 1 ∧
      t.outLive.getLast? = some (.span (s.t0Hi.toNat * 2 ^ 32 + s.t0Lo.toNat)
        (s.t0Hi.toNat * 2 ^ 32 + s.t0Lo.toNat + scheduleTime fam s)) ∧
      t.outLive.take 21 = headerRecords s.visCode (s.t0Hi.toNat * 2 ^ 32 + s.t0Lo.toNat) ∧
      t.outPcm = [] ∧ t.sampCount = 0 ∧ t.sampEmit = 0 ∧ OnlyOutputs s t

/-- R228, R221, R226: when the checks pass, `ENC_PCM` succeeds; `SAMP_COUNT` is `floor(T * fs / 10^9)`, the buffer has
that length, and `SAMP_EMIT` is the number of samples the segments yield, at most that. -/
def Obligations.EncPcmSucceeds : Prop :=
  ∀ (s : State) (fam : Family), s.status ≠ .busy → s.view = .atomic → Encodable .pcm fam s →
    ∃ t, exec .encPcm s = .next t ∧ t.status = .done ∧ t.err = .none ∧
      t.segCount.toNat = segmentCount fam s.numLines.toNat ∧
      t.sampCount.toNat = scheduleTime fam s * s.sampleRate.toNat / 1000000000 ∧
      t.outPcm.length = t.sampCount.toNat ∧
      t.sampEmit.toNat = (sampleFreqs s.sampleRate.toNat t.sched).length ∧
      t.sampEmit.toNat ≤ t.sampCount.toNat ∧
      t.outLive = [] ∧ OnlyOutputs s t

/-- R224, R225, R226: every sample of `OUT_PCM` is the sine at its absolute index of the frequency in force, and the
rest of the buffer is 0. R224, R230 c and d, 92 D13: in the exact configuration that sine is the real one, and equal sines
one period apart are equal data. -/
def Obligations.PcmIsTheSineOfTheAbsoluteIndex : Prop :=
  (∀ (s t : State), s.status ≠ .busy → s.view = .atomic → exec .encPcm s = .next t → t.status = .done →
    t.sampEmit.toNat = (sampleFreqs s.sampleRate.toNat t.sched).length ∧ t.sampEmit.toNat ≤ t.sampCount.toNat ∧
    t.outPcm = samplesFrom s 0 (sampleFreqs s.sampleRate.toNat t.sched) ++
      List.replicate (t.sampCount.toNat - t.sampEmit.toNat) (.value 0)) ∧
  (∀ (q : Rat) (x : ℝ), ampIs (sinTurn .exact q) x ↔ x = Real.sin (2 * Real.pi * q)) ∧
  (∀ (q : Rat), sinTurn .exact (q + 1) = sinTurn .exact q) ∧
  sinTurn .exact 0 = .value 0 ∧ sinTurn .exact (1 / 2) = .value 0 ∧ sinTurn .exact (1 / 4) = .value 1 ∧
  sinTurn .exact (3 / 4) = .value (-1)

/-- R277: the order in which the checks of `ENC_LIVE` and `ENC_PCM` report, and R274: what the error leaves. -/
def Obligations.EncodeErrorsInOrder : Prop :=
  ∀ (s : State) (i : Instr) (c : EncCmd), (i = .encLive ∧ c = .live) ∨ (i = .encPcm ∧ c = .pcm) →
    s.status ≠ .busy → s.view = .atomic →
      let fails := fun e => exec i s = .next { cleared .error e s with running := c, phase := .checks }
      let known := 1 ≤ s.family.toNat ∧ s.family.toNat ≤ 4
      let sizes := s.numLines.toNat ≠ 0 ∧ s.hPixels.toNat ≠ 0 ∧ s.tScan.toNat ≠ 0
      let paired := s.family.toNat = 3 → s.numLines.toNat % 2 = 0
      let rated := c = .pcm → s.sampleRate.toNat ≠ 0
      (¬ known → fails .unsupportedFormatOperation) ∧
      (known → ¬ sizes → fails .invalidParameter) ∧
      (known → sizes → ¬ paired → fails .invalidParameter) ∧
      (known → sizes → paired → ¬ rated → fails .invalidParameter) ∧
      (known → sizes → paired → rated → s.pixLen.toNat < 4 * s.numLines.toNat * s.hPixels.toNat →
        fails .inputSizeMismatch)

/-- R9, R240, R280: in a stepwise view an encode command's own step is its acceptance. -/
def Obligations.StepwiseCommandIsAccepted : Prop :=
  ∀ (s : State), s.status ≠ .busy → s.view ≠ .atomic →
    exec .encHdr s = .next { cleared .busy .none s with running := .hdr, phase := .checks } ∧
    exec .encLive s = .next { cleared .busy .none s with running := .live, phase := .checks } ∧
    exec .encPcm s = .next { cleared .busy .none s with running := .pcm, phase := .checks }

/-! ## The schedules -/

/-- R192, R171, R157: Martin's schedule, segment by segment. -/
def Obligations.MartinSchedule : Prop :=
  ∀ (s : State) (l : Nat), l < s.numLines.toNat →
    (schedule .martin s).length = 21 + 8 * s.numLines.toNat ∧
    ((schedule .martin s).drop (21 + 8 * l)).take 8 =
      [syncHold s, blankHold s, channelCurve s l 1, blankHold s, channelCurve s l 2, blankHold s, channelCurve s l 0,
       blankHold s]

/-- R193, R171, R315: Scottie's schedule: one sync before the image, and in each line the sync before red. -/
def Obligations.ScottieSchedule : Prop :=
  ∀ (s : State) (l : Nat), l < s.numLines.toNat →
    (schedule .scottie s).length = 22 + 7 * s.numLines.toNat ∧
    (schedule .scottie s)[21]? = some (syncHold s) ∧
    ((schedule .scottie s).drop (22 + 7 * l)).take 7 =
      [blankHold s, channelCurve s l 1, blankHold s, channelCurve s l 2, syncHold s, blankHold s, channelCurve s l 0]

/-- R194, R173, R174: PD's schedule: luma of both lines, chroma averaged over the pair. That `rnd_f` is applied to each
frequency before the average and to the average again is the model's choice (DEDUCED, log entry 16); in the exact
configuration it is the identity. -/
def Obligations.PdSchedule : Prop :=
  ∀ (s : State) (p : Nat), s.numLines.toNat % 2 = 0 → p < s.numLines.toNat / 2 →
    (schedule .pd s).length = 21 + 3 * s.numLines.toNat ∧
    ((schedule .pd s).drop (21 + 6 * p)).take 6 =
      [syncHold s, blankHold s, lumaCurve s (2 * p), averageCurve s redChromaValue p,
       averageCurve s blueChromaValue p, lumaCurve s (2 * p + 1)]

/-- R195, R172, R312: Wrasse's schedule, the same for both projections. -/
def Obligations.WrasseSchedule : Prop :=
  ∀ (s : State) (l : Nat), l < s.numLines.toNat →
    (schedule .wrasse s).length = 21 + 5 * s.numLines.toNat ∧
    ((schedule .wrasse s).drop (21 + 5 * l)).take 5 =
      [syncHold s, blankHold s, channelCurve s l 0, channelCurve s l 1, channelCurve s l 2]

/-- R12, R191, R312: `ENC_LIVE` and `ENC_PCM` build the same `SCHED`. -/
def Obligations.BothProjectionsShareOneSchedule : Prop :=
  ∀ (s : State) (fam : Family), s.status ≠ .busy → s.view = .atomic → Encodable .pcm fam s →
    ∃ t u, exec .encLive s = .next t ∧ exec .encPcm s = .next u ∧ t.sched = u.sched ∧ t.sched = schedule fam s ∧
      t.segCount = u.segCount

/-- R198, R200: each segment yields one record with its frequencies, stamped with the start time plus the durations
before it; after them comes the one `SPAN`. -/
def Obligations.LiveRecordsFollowTheSchedule : Prop :=
  ∀ (s t : State) (i : Instr), i = .encHdr ∨ i = .encLive → s.status ≠ .busy → s.view = .atomic →
    exec i s = .next t → t.status = .done →
      let start := s.t0Hi.toNat * 2 ^ 32 + s.t0Lo.toNat
      t.outLive.length = t.sched.length + 1 ∧
      (∀ k < t.sched.length, t.outLive[k]? = (t.sched[k]?).map fun seg =>
        liveRecord seg (start + ((t.sched.take k).map segDuration).sum)) ∧
      t.outLive[t.sched.length]? = some (.span start (start + (t.sched.map segDuration).sum))

/-- R66, R203: the timestamps of the setpoints never decrease, and rise strictly after a segment that lasts. -/
def Obligations.LiveTimestampsDoNotDecrease : Prop :=
  ∀ (s t : State) (k : Nat) (a b : Record), s.status ≠ .busy → s.view = .atomic → exec .encLive s = .next t →
    t.status = .done → k + 1 < t.sched.length → t.outLive[k]? = some a → t.outLive[k + 1]? = some b →
      stampOf a ≤ stampOf b ∧ (∀ seg, t.sched[k]? = some seg → 0 < segDuration seg → stampOf a < stampOf b)

/-! ## Segments and records as instructions -/

/-- R222: `HOLD` in the sample projection writes `floor(sec(d) * fs)` samples at consecutive absolute indices, and
nothing else of the buffer. -/
def Obligations.HoldRendersItsSamples : Prop :=
  ∀ (s : State) (f : Freq) (d : Time), s.running = .pcm → s.view ≠ .sample →
    s.n + d * s.sampleRate.toNat / 1000000000 ≤ s.outPcm.length →
      let c := d * s.sampleRate.toNat / 1000000000
      exec (.hold f d) s = .next { s with
        outPcm := s.outPcm.take s.n ++ samplesFrom s s.n (List.replicate c f) ++ s.outPcm.drop (s.n + c)
        n := s.n + c, segPtr := s.segPtr + 1, sub := 0, j := 0 }

/-- R223: `CURVE` in the sample projection: `k` constant sub-holds of equal sample count, no interpolation. -/
def Obligations.CurveRendersItsSamples : Prop :=
  ∀ (s : State) (fs : List Freq) (d : Time), s.running = .pcm → s.view ≠ .sample → fs ≠ [] →
    s.n + fs.length * (d * s.sampleRate.toNat / (fs.length * 1000000000)) ≤ s.outPcm.length →
      let c := d * s.sampleRate.toNat / (fs.length * 1000000000)
      exec (.curve fs d) s = .next { s with
        outPcm := s.outPcm.take s.n ++ samplesFrom s s.n (fs.flatMap fun f => List.replicate c f) ++
          s.outPcm.drop (s.n + fs.length * c)
        n := s.n + fs.length * c, segPtr := s.segPtr + 1, sub := 0, j := 0 }

/-- R232: one step of the sample view writes the sample of `(SEG_PTR, SUB, J)` and advances `J`, then `SUB`, then
`SEG_PTR`; a segment that yields no sample is skipped without writing. -/
def Obligations.SampleStepWritesOneSample : Prop :=
  ∀ (s : State) (i : Instr) (fs : List Freq) (c : Nat) (d : Time), s.running = .pcm → s.view = .sample →
    (∃ f, i = .hold f d ∧ fs = [f] ∧ c = d * s.sampleRate.toNat / 1000000000) ∨
      (i = .curve fs d ∧ c = d * s.sampleRate.toNat / (fs.length * 1000000000)) →
      (c = 0 → exec i s = .next { s with segPtr := s.segPtr + 1, sub := 0, j := 0 }) ∧
      (∀ f, 0 < c → fs[s.sub]? = some f →
        exec i s = .next { s with
          outPcm := s.outPcm.set s.n (sampleOf s f s.n), n := s.n + 1
          j := if s.j + 1 < c then s.j + 1 else 0
          sub := if s.j + 1 < c then s.sub else if s.sub + 1 < fs.length then s.sub + 1 else 0
          segPtr := if s.j + 1 < c ∨ s.sub + 1 < fs.length then s.segPtr else s.segPtr + 1 })

/-- R150, R190, R198: `HOLD` and `CURVE` in the live projection emit one record and advance the time. -/
def Obligations.LiveSegmentsEmitAndAdvance : Prop :=
  ∀ (s : State) (f : Freq) (fs : List Freq) (d : Time), s.running ≠ .pcm →
    exec (.hold f d) s = .next { s with
      outLive := s.outLive ++ [.set f s.tAcc], tAcc := s.tAcc + d, segPtr := s.segPtr + 1, sub := 0, j := 0 } ∧
    exec (.curve fs d) s = .next { s with
      outLive := s.outLive ++ [.curveAt fs s.tAcc d], tAcc := s.tAcc + d, segPtr := s.segPtr + 1, sub := 0, j := 0 }

/-- R8, R66, R198, R200: a record is appended to `OUT_LIVE`, the records before it unchanged, and nothing else
changes. -/
def Obligations.RecordsAreAppended : Prop :=
  ∀ (s : State) (f : Freq) (fs : List Freq) (t d start stop : Time),
    exec (.set f t) s = .next { s with outLive := s.outLive ++ [.set f t] } ∧
    exec (.curveAt fs t d) s = .next { s with outLive := s.outLive ++ [.curveAt fs t d] } ∧
    exec (.span start stop) s = .next { s with outLive := s.outLive ++ [.span start stop] }

/-! ## Whole-machine rules and frames -/

/-- R48, R51: no instruction writes a register of the host's, a `PIX` byte, the configuration or the host's list. -/
def Obligations.NoInstructionWritesHostState : Prop :=
  ∀ (i : Instr) (s t : State), exec i s = .next t →
    t.family = s.family ∧ t.numLines = s.numLines ∧ t.hPixels = s.hPixels ∧ t.tBlank = s.tBlank ∧
    t.tScan = s.tScan ∧ t.tSync = s.tSync ∧ t.visCode = s.visCode ∧ t.sampleRate = s.sampleRate ∧
    t.t0Lo = s.t0Lo ∧ t.t0Hi = s.t0Hi ∧ t.pixLen = s.pixLen ∧ t.line = s.line ∧ t.hpos = s.hpos ∧
    (∀ a, memRead t.pix a = memRead s.pix a) ∧ t.pix = s.pix ∧ t.view = s.view ∧ t.params = s.params ∧
    t.host = s.host ∧ t.hostData = s.hostData ∧ t.readFault = s.readFault

/-- R38: `FREQ0..2` are written only by a successful `MAP_*`; `MAP_GREY` writes `FREQ0` alone; a `MAP_*` touches
nothing else but what acceptance and its status change. -/
def Obligations.FreqWrittenOnlyByMap : Prop :=
  ∀ (i : Instr) (s t : State), exec i s = .next t →
    (i ≠ .mapGrey → i ≠ .mapRgb → i ≠ .mapYc →
      t.freq0 = s.freq0 ∧ t.freq1 = s.freq1 ∧ t.freq2 = s.freq2) ∧
    (i = .mapGrey → t.freq1 = s.freq1 ∧ t.freq2 = s.freq2) ∧
    (t.status = .error → t.freq0 = s.freq0 ∧ t.freq1 = s.freq1 ∧ t.freq2 = s.freq2) ∧
    (i = .mapGrey ∨ i = .mapRgb ∨ i = .mapYc → s.status ≠ .busy →
      t = { cleared t.status t.err s with freq0 := t.freq0, freq1 := t.freq1, freq2 := t.freq2 })

/-- R66, R67, R198, R222: frame of the segments: a segment in a live command leaves the samples alone, and in
`ENC_PCM` the records; status, counters, `FREQ`, `PREP` and `SCHED` are untouched in both. -/
def Obligations.SegmentFrame : Prop :=
  ∀ (s t : State) (seg : Segment), exec (segmentInstr seg) s = .next t →
    t = { s with
      outLive := t.outLive, outPcm := t.outPcm, n := t.n, tAcc := t.tAcc, segPtr := t.segPtr, sub := t.sub, j := t.j } ∧
    (s.running = .pcm → t.outLive = s.outLive ∧ t.tAcc = s.tAcc ∧ t.outPcm.length = s.outPcm.length) ∧
    (s.running ≠ .pcm → t.outPcm = s.outPcm ∧ t.n = s.n)

/-- R306, R70, R240: a host write to `REG`, `CMD` included, or to `PIX` while `BUSY` changes nothing, and a command
started while `BUSY` changes nothing. -/
def Obligations.BusyDropsHostWrites : Prop :=
  ∀ (s : State), s.status = .busy →
    (∀ (m : HostMove) (rest : List HostMove), s.host = m :: rest → isWrite m = true →
      step s = .next { s with host := rest }) ∧
    (∀ (i : Instr), isCommand i → exec i s = .next s)

/-- R244, R64, R33 to R38: a read of a register hands over its field, zero-extended, and changes nothing else, in every
state; a reserved, unaligned or narrow access and one to `CMD` read 0; a FREQ window reads the words of `freq_repr`, low
first (the order is log entry 6's). Before a `MAP_*` has written the register the read is U4's: it is recorded, for good,
and the word is that of the value the register holds, 0 after reset (that the run goes on, and that value, are the model's
choice, log entry 7).
R66, R67, R246: a read of an element of an output hands it over; R306: while `BUSY` no sample at or above `N` is. That a
read of no element hands over `nothing` is the model's choice (log entries 19 and 22). -/
def Obligations.HostReadsReturnTheField : Prop :=
  (∀ (s : State) (offset : Nat) (width : AccessWidth) (rest : List HostMove), s.host = .read offset width :: rest →
    let reads := fun (w : Word) => step s = .next { s with host := rest, hostData := .word w }
    let readsU4 := fun (w : Word) =>
      step s = .next { s with host := rest, hostData := .word w, readFault := true }
    (width ≠ .word ∨ offset % 4 ≠ 0 ∨ 0x90 ≤ offset ∨ offset = 0x5C ∨ offset = 0x00 → reads 0) ∧
    (width = .word → ∀ (field : State → Nat), (offset, field) ∈ readableWords → reads (BitVec.ofNat 32 (field s))) ∧
    (width = .word → ∀ k < 4, ∀ (base : Nat) (reg : FreqReg),
      (base, reg) ∈ [(0x60, s.freq0), (0x70, s.freq1), (0x80, s.freq2)] → offset = base + 4 * k →
        (reg.written = true → reads ((Config.freqRepr s.params.num reg.value).extractLsb' (32 * k) 32)) ∧
        (reg.written = false →
          readsU4 ((Config.freqRepr s.params.num reg.value).extractLsb' (32 * k) 32)))) ∧
  (∀ (s : State) (k : Nat) (rest : List HostMove), s.host = .readLive k :: rest →
    let reads := fun (d : HostData) => step s = .next { s with host := rest, hostData := d }
    (∀ r, s.outLive[k]? = some r → reads (.record r)) ∧ (s.outLive.length ≤ k → reads .nothing)) ∧
  (∀ (s : State) (k : Nat) (rest : List HostMove), s.host = .readPcm k :: rest →
    let reads := fun (d : HostData) => step s = .next { s with host := rest, hostData := d }
    (∀ a, s.outPcm[k]? = some a → s.status ≠ .busy ∨ k < s.n → reads (.sample a)) ∧
    (s.outPcm.length ≤ k ∨ (s.status = .busy ∧ s.n ≤ k) → reads .nothing))

/-- R243, R244, R64: a 32-bit write to a field register stores the bits of its field and drops the rest, and the next
read returns them zero-extended; R30: `PIX_LEN` takes the smaller of the value written and `PIXMEM_BYTES`. -/
def Obligations.WrittenRegistersReadBack : Prop :=
  ∀ (s : State) (v : Word) (rest : List HostMove), s.status ≠ .busy →
    (∀ (offset : Nat) (field : State → Nat) (bits : Nat), (offset, field, bits) ∈ fieldRegisters →
      s.host = .write offset .word v :: .read offset .word :: rest →
        ∃ t, step s = .next t ∧ field t = v.toNat % 2 ^ bits ∧
          step t = .next { t with host := rest, hostData := .word (BitVec.ofNat 32 (v.toNat % 2 ^ bits)) }) ∧
    (s.host = .write 0x34 .word v :: .read 0x34 .word :: rest →
      ∃ t, step s = .next t ∧ t.pixLen.toNat = min v.toNat s.params.pixmemBytes ∧
        step t = .next { t with host := rest, hostData := .word t.pixLen })

/-- R243, R64: a register write other than to `CMD` changes no register but the one at its offset: not another
host-writable register, not `STATUS`, `ERR`, the counters or the outputs; one to a read-only or reserved offset, or not of
32 bits, changes nothing. -/
def Obligations.RegisterWriteFrame : Prop :=
  ∀ (s : State) (offset : Nat) (width : AccessWidth) (v : Word) (rest : List HostMove),
    s.status ≠ .busy → s.host = .write offset width v :: rest → offset ≠ 0x00 ∨ width ≠ .word →
      ∃ t, step s = .next t ∧
        t = { s with
          host := rest, family := t.family, numLines := t.numLines, hPixels := t.hPixels, tBlank := t.tBlank,
          tScan := t.tScan, tSync := t.tSync, visCode := t.visCode, sampleRate := t.sampleRate, t0Lo := t.t0Lo,
          t0Hi := t.t0Hi, pixLen := t.pixLen, line := t.line, hpos := t.hpos } ∧
        (∀ (other : Nat) (field : State → Nat) (bits : Nat), (other, field, bits) ∈ fieldRegisters → other ≠ offset →
          field t = field s) ∧
        (offset ≠ 0x34 → t.pixLen = s.pixLen) ∧
        (width ≠ .word ∨ offset < 0x0C ∨ 0x3C < offset ∨ offset % 4 ≠ 0 → t = { s with host := rest })

/-- R245: a pixel write stores each byte below `PIXMEM_BYTES` at its address, drops the others, and leaves every other
byte and every register alone; while `BUSY` it stores nothing. -/
def Obligations.PixelWriteStoresItsBytes : Prop :=
  ∀ (s : State) (addr : Nat) (bytes : List Byte) (rest : List HostMove), s.host = .pixels addr bytes :: rest →
    (s.status = .busy → step s = .next { s with host := rest }) ∧
    (s.status ≠ .busy →
      ∃ t, step s = .next t ∧ t = { s with host := rest, pix := t.pix } ∧
        (∀ i v, bytes[i]? = some v → addr + i < s.params.pixmemBytes → memRead t.pix (addr + i) = some v) ∧
        (∀ a, a < addr ∨ addr + bytes.length ≤ a ∨ s.params.pixmemBytes ≤ a → memRead t.pix a = memRead s.pix a))

/-- R37, R201: reading `EST_DUR` gives `NUM_LINES * (T_SCAN + T_BLANK + 3 * T_SYNC)` without wrap-around. -/
def Obligations.EstDurReadsTheEstimate : Prop :=
  ∀ (s : State) (rest : List HostMove), s.host = .read 0x54 .word :: .read 0x58 .word :: rest →
    ∃ (t u : State) (lo hi : Word), step s = .next t ∧ step t = .next u ∧ t.hostData = .word lo ∧
      u.hostData = .word hi ∧
      hi.toNat * 2 ^ 32 + lo.toNat =
        s.numLines.toNat * (s.tScan.toNat + s.tBlank.toNat + 3 * s.tSync.toNat)

/-! ## Reset -/

/-- R49: what reset leaves, where the spec gives a value, whatever the parameters; an encode command fails straight after
it. -/
def Obligations.ResetValues : Prop :=
  ∀ (p : Params),
  let s := State.resetWith p
  s.params = p ∧
  s.family = 0 ∧ s.numLines = 0 ∧ s.hPixels = 0 ∧ s.tBlank = 0 ∧ s.tScan = 0 ∧ s.tSync = 0 ∧ s.visCode = 0 ∧
  s.sampleRate = 0 ∧ s.t0Lo = 0 ∧ s.t0Hi = 0 ∧ s.pixLen = 0 ∧ s.line = 0 ∧ s.hpos = 0 ∧ s.status = .idle ∧
  s.err = .none ∧ s.segCount = 0 ∧ s.sampCount = 0 ∧ s.sampEmit = 0 ∧ estDur s = 0 ∧ readReg .cmd s = 0 ∧
  s.freq0.written = false ∧ s.freq1.written = false ∧ s.freq2.written = false ∧
  s.segPtr = 0 ∧ s.sub = 0 ∧ s.j = 0 ∧ s.n = 0 ∧ s.tAcc = 0 ∧ s.prep = [] ∧ s.sched = [] ∧ s.outLive = [] ∧
  s.outPcm = [] ∧ (∀ a, memRead s.pix a = none) ∧
  ∀ i, i = .encLive ∨ i = .encPcm →
    ∃ t, exec i s = .next t ∧ t.status = .error ∧ t.err = .unsupportedFormatOperation

/-- R302: the first command after reset, whatever the parameters. -/
def Obligations.FirstCommandAfterReset : Prop :=
  ∀ (p : Params),
  exec .clear (State.resetWith p) = .next (State.resetWith p) ∧
  (∃ t, exec .encHdr (State.resetWith p) = .next t ∧ t.status = .done ∧
    t.outLive = headerRecords 0 0 ++ [.span 0 1710000000]) ∧
  (∀ i, i = .encLive ∨ i = .encPcm →
    ∃ t, exec i (State.resetWith p) = .next t ∧ t.status = .error ∧ t.err = .unsupportedFormatOperation) ∧
  (∀ i, i = .mapGrey ∨ i = .mapRgb ∨ i = .mapYc →
    ∃ t, exec i (State.resetWith p) = .next t ∧ t.status = .error ∧ t.err = .inputSizeMismatch)

/-- R300: the reset input discards a running command and gives the block its reset values; the configuration and the
host's own data are not the block's. R301: with no command running and no host move, nothing happens. -/
def Obligations.ResetInputAndIdleBlock : Prop :=
  ∀ (s : State),
    (∀ (rest : List HostMove), s.host = .reset :: rest →
      step s = .next { State.resetWith s.params with
        view := s.view, host := rest, hostData := s.hostData, readFault := s.readFault }) ∧
    (s.status ≠ .busy → s.host = [] → step s = .next s)

/-! ## Invariants -/

/-- R49: reset meets every invariant below, whatever the parameters, if `PIXMEM_BYTES` is in the range of R5; the default
parameters' is. -/
def Obligations.ResetMeetsTheInvariants : Prop :=
  (∀ (p : Params), 0 < p.pixmemBytes → p.pixmemBytes < 2 ^ 32 →
    let s := State.resetWith p
    s.PixInv ∧ s.StatusInv ∧ s.SchedInv ∧ s.AmpInv ∧ s.RecordInv ∧ s.SeqInv ∧ s.CountInv) ∧
  State.reset = State.resetWith Params.default ∧ Params.default.num = .exact ∧ Params.default.n0 = 0 ∧
  0 < Params.default.pixmemBytes ∧ Params.default.pixmemBytes < 2 ^ 32

/-- R30, R46, R245: every step keeps pixel memory canonical and inside `PIXMEM_BYTES`, and `PIX_LEN` legal. R47: the
parameters are arguments of the step: `step` is `blockStep` of the block with the parameters passed, and passes the same
ones on. -/
def Obligations.StepKeepsPixelMemory : Prop :=
  (∀ (s t : State), s.PixInv → step s = .next t → t.PixInv) ∧
  ∀ (p : Params) (b : Block),
    step { b with params := p } =
      match blockStep p b with
      | .next c => .next { c with params := p }
      | .fault r => .fault r
      | .refused r => .refused r

/-- R33, R34, R274, R280: every step keeps what the status says of the error code, the counters and the outputs. -/
def Obligations.StepKeepsStatus : Prop :=
  ∀ (s t : State), s.StatusInv → step s = .next t → t.StatusInv

/-- R43, R95, R98: every step keeps `SCHED` made of well-formed segments. -/
def Obligations.StepKeepsScheduleWellFormed : Prop :=
  ∀ (s t : State), s.SchedInv → step s = .next t → t.SchedInv

/-- R45, R229: every step keeps every sample within [-1, 1]. -/
def Obligations.StepKeepsSamplesInRange : Prop :=
  ∀ (s t : State), s.AmpInv → step s = .next t → t.AmpInv

/-- R35, R39 to R41, R197, R221: every step keeps the engine's position right: inside a schedule of bounded length and
duration, `T_ACC` the start time plus what was projected, `N` the samples rendered. -/
def Obligations.StepKeepsTheEnginePosition : Prop :=
  ∀ (s t : State), s.SchedInv → s.SeqInv → step s = .next t → t.SeqInv

/-- R96, R98, R41: every step keeps every record of `OUT_LIVE` an instruction whose times fit their fields. -/
def Obligations.StepKeepsRecordsWellFormed : Prop :=
  ∀ (s t : State), s.SchedInv → s.SeqInv → s.RecordInv → step s = .next t → t.RecordInv

/-- R36, R226: every step keeps, after a command, the buffer's length equal to `SAMP_COUNT` and `SAMP_EMIT` at most
that. -/
def Obligations.StepKeepsTheSampleCounts : Prop :=
  ∀ (s t : State), s.StatusInv → s.SeqInv → s.CountInv → step s = .next t → t.CountInv

/-- R35, R39, R40, R41: the engine's counters never pass the widths the spec gives them. -/
def Obligations.EngineCountersFitTheirWidths : Prop :=
  ∀ (s : State), s.SchedInv → s.SeqInv → s.WidthInv

/-- R10, R98: a machine whose schedule is well-formed never refuses a step. -/
def Obligations.StepNeverRefuses : Prop :=
  ∀ (s : State) (r : Refusal), s.SchedInv → step s ≠ .refused r

/-- U3 (93_implementation_defined.md): a step faults only on a pixel byte below `PIX_LEN` that has not been written. U4:
only a host read of a word of a `FREQ` register that has not been written is recorded as a read fault, and nothing takes the
record back. -/
def Obligations.StepFaultsOnlyOnUnwrittenState : Prop :=
  (∀ (s : State) (r : Fault), step s = .fault r → ∃ a, a < s.pixLen.toNat ∧ memRead s.pix a = none) ∧
  ∀ (s t : State), step s = .next t →
    (s.readFault = true → t.readFault = true) ∧
    (s.readFault = false → t.readFault = true →
      ∃ offset rest, s.host = .read offset .word :: rest ∧
        ((0x60 ≤ offset ∧ offset < 0x70 ∧ s.freq0.written = false) ∨
          (0x70 ≤ offset ∧ offset < 0x80 ∧ s.freq1.written = false) ∨
          (0x80 ≤ offset ∧ offset < 0x90 ∧ s.freq2.written = false)))

/-! ## Refinement and noninterference -/

/-- R9, R202, R306: in either stepwise view, writing the command and waiting for it reaches exactly the state of the
atomic transition. The bound is R202's `len(SCHED) + 1` turns and three more, which are the model's choice: the write's own
step and the one of the checks (log entry 22), and the step in which the waiting move (log entry 9) goes on. -/
def Obligations.StepwiseLiveReachesTheAtomicResult : Prop :=
  ∀ (s t : State) (i : Instr) (w : Word) (v : View),
    (i = .encHdr ∧ w = 4) ∨ (i = .encLive ∧ w = 5) →
    s.status ≠ .busy → s.host = [] → s.view = .atomic → v ≠ .atomic → exec i s = .next t →
      ∃ k, k ≤ t.sched.length + 4 ∧
        Host.Core.run Sys2Proof.core k { s with view := v, host := [.write 0x00 .word w, .await] }
          = .next { t with view := v }

/-- R9, R202, R232: the same of `ENC_PCM`, one segment or one sample a step. The four steps beyond `len(SCHED)` and the
samples are the model's choice, as are those of a segment that yields no sample (log entry 22) and the waiting move (log
entry 9). -/
def Obligations.StepwisePcmReachesTheAtomicResult : Prop :=
  ∀ (s t : State) (v : View),
    s.status ≠ .busy → s.host = [] → s.view = .atomic → v ≠ .atomic → exec .encPcm s = .next t →
      ∃ k, k ≤ t.sched.length + t.outPcm.length + 4 ∧
        Host.Core.run Sys2Proof.core k { s with view := v, host := [.write 0x00 .word 6, .await] }
          = .next { t with view := v }

/-- R11, R310: what a command outputs depends on the registers, the pixel bytes below `PIX_LEN` and the configuration
alone, and on no earlier command. -/
def Obligations.OutputDependsOnInputsAlone : Prop :=
  ∀ (s s' t : State) (i : Instr), isCommand i → SameInputs s s' → s.status ≠ .busy → s'.status ≠ .busy →
    exec i s = .next t →
      ∃ t', exec i s' = .next t' ∧ t'.status = t.status ∧ t'.err = t.err ∧ t'.outLive = t.outLive ∧
        t'.outPcm = t.outPcm ∧ t'.segCount = t.segCount ∧ t'.sampCount = t.sampCount ∧ t'.sampEmit = t.sampEmit ∧
        (i = .mapGrey ∨ i = .mapRgb ∨ i = .mapYc → t.status = .done → t'.freq0 = t.freq0) ∧
        (i = .mapRgb ∨ i = .mapYc → t.status = .done → t'.freq1 = t.freq1 ∧ t'.freq2 = t.freq2)

/-- R63: the alpha bytes never affect anything. -/
def Obligations.AlphaIsNeverRead : Prop :=
  ∀ (s t : State) (i : Instr) (a : Nat) (v : Byte), a % 4 = 3 → exec i s = .next t →
    exec i { s with pix := memWrite s.pix a v } = .next { t with pix := memWrite s.pix a v }

/-- R227: `ENC_PCM` does not depend on `T0`; R199, R159 (92 D29): `ENC_LIVE` and `ENC_HDR` do not read
`SAMPLE_RATE`. -/
def Obligations.UnreadOperandsDoNotMatter : Prop :=
  ∀ (s t : State), s.status ≠ .busy → s.view = .atomic →
    (∀ (lo : Word) (hi : BitVec 31), exec .encPcm s = .next t →
      exec .encPcm { s with t0Lo := lo, t0Hi := hi }
        = .next { t with t0Lo := lo, t0Hi := hi, tAcc := hi.toNat * 2 ^ 32 + lo.toNat }) ∧
    (∀ (i : Instr) (rate : Word), i = .encHdr ∨ i = .encLive → exec i s = .next t →
      exec i { s with sampleRate := rate } = .next { t with sampleRate := rate })

/-! ## The container, outside the block -/

/-- R260 to R264: the container's length, its tag, its two length fields, and where each sample's 16-bit code stands, low
byte first; R263: the code is the nearest integer, halves up. -/
def Obligations.ContainerLayoutAndQuantization : Prop :=
  (∀ (rate n : Nat) (channels : List (List Amp)), 44 + n * channels.length * 2 < 2 ^ 32 →
    let bytes := wav rate n channels
    let wordAt := fun k => List.foldr (fun (b : Byte) acc => b.toNat + 256 * acc) 0 ((bytes.drop k).take 4)
    bytes.length = 44 + n * channels.length * 2 ∧ bytes.take 4 = [0x52, 0x49, 0x46, 0x46] ∧
    wordAt 4 = bytes.length - 8 ∧ wordAt 40 = bytes.length - 44 ∧
    ∀ i < n, ∀ c < channels.length,
      (bytes[44 + (i * channels.length + c) * 2]?).map BitVec.toNat
        = some (quantize ((channels.getD c []).getD i (.value 0)) % 256) ∧
      (bytes[44 + (i * channels.length + c) * 2 + 1]?).map BitVec.toNat
        = some (quantize ((channels.getD c []).getD i (.value 0)) / 256)) ∧
  (∀ (a : Amp) (x : ℝ), ampIs a x → quantize a ≤ 65535 ∧
    (-1 ≤ x → x ≤ 1 → (quantize a : ℝ) - 1 / 2 ≤ (1 / 2 + 1 / 2 * x) * 65535 ∧
      (1 / 2 + 1 / 2 * x) * 65535 < (quantize a : ℝ) + 1 / 2) ∧
    (x ≤ -1 → quantize a = 0) ∧ (1 ≤ x → quantize a = 65535))
end

