-- ==== Sys2Proof/Laws/Memory.lean ====
section
/-! SUPPORT. The laws of pixel memory: read after write, and the canonical form kept by every operation. -/

namespace Sys2Proof.Machine

/-- Reading the address just written gives the byte written. -/
theorem memRead_memWrite_same (m : List Host.Cell) (a : Nat) (v : Byte) :
    memRead (memWrite m a v) a = some v := by
  induction m with
  | nil => simp [memWrite, memRead]
  | cons c rest ih =>
    obtain ⟨b, w⟩ := c
    by_cases hlt : a < b
    · simp [memWrite, memRead, hlt]
    · by_cases heq : a = b
      · simp [memWrite, memRead, heq]
      · simp [memWrite, memRead, hlt, heq, ih]

/-- A write leaves every other address alone. -/
theorem memRead_memWrite_other (m : List Host.Cell) (a c : Nat) (v : Byte) (h : c ≠ a) :
    memRead (memWrite m a v) c = memRead m c := by
  induction m with
  | nil =>
    have : memRead [(a, v)] c = none := by simp [memRead, h]
    simpa [memWrite, memRead] using this
  | cons e rest ih =>
    obtain ⟨b, w⟩ := e
    by_cases hlt : a < b
    · simp only [memWrite, hlt, if_true, memRead, h, if_false]
      by_cases hc : c < a
      · have h1 : c ≠ b := by omega
        have h2 : c < b := by omega
        simp [hc, h1, h2]
      · simp [hc]
    · by_cases heq : a = b
      · subst heq
        simp [memWrite, memRead, h]
      · simp [memWrite, memRead, hlt, heq, ih]

/-- A write of an address above `lo` keeps a list sorted above `lo`. -/
theorem memSortedAbove_memWrite (lo : Nat) (m : List Host.Cell) (a : Nat) (v : Byte) (h : lo < a)
    (hm : memSortedAbove lo m = true) : memSortedAbove lo (memWrite m a v) = true := by
  induction m generalizing lo with
  | nil => simp [memWrite, memSortedAbove, h]
  | cons e rest ih =>
    obtain ⟨b, w⟩ := e
    simp only [memSortedAbove, Bool.and_eq_true, decide_eq_true_eq] at hm
    obtain ⟨hb, hr⟩ := hm
    by_cases hlt : a < b
    · simp [memWrite, hlt, memSortedAbove, h, hr]
    · by_cases heq : a = b
      · subst heq
        simp [memWrite, memSortedAbove, hb, hr]
      · have hba : b < a := by omega
        simp [memWrite, hlt, heq, memSortedAbove, hb, ih b hba hr]

/-- A write keeps the canonical form. -/
theorem memWrite_wf (m : List Host.Cell) (a : Nat) (v : Byte) (hm : Memory.wf m = true) :
    Memory.wf (memWrite m a v) = true := by
  cases m with
  | nil => simp [memWrite, Memory.wf, memSortedAbove]
  | cons e rest =>
    obtain ⟨b, w⟩ := e
    simp only [Memory.wf] at hm
    by_cases hlt : a < b
    · simp [memWrite, hlt, Memory.wf, memSortedAbove, hm]
    · by_cases heq : a = b
      · subst heq
        simp [memWrite, Memory.wf, hm]
      · have hba : b < a := by omega
        simpa [memWrite, hlt, heq, Memory.wf] using memSortedAbove_memWrite b rest a v hba hm

/-- A write below the bound keeps every listed address below it. -/
theorem memWrite_below (bound : Nat) (m : List Host.Cell) (a : Nat) (v : Byte) (ha : a < bound)
    (hm : Memory.below bound m = true) : Memory.below bound (memWrite m a v) = true := by
  induction m with
  | nil => simp [memWrite, Memory.below, ha]
  | cons e rest ih =>
    obtain ⟨b, w⟩ := e
    simp only [Memory.below, List.all_cons, Bool.and_eq_true, decide_eq_true_eq] at hm ih
    obtain ⟨hb, hr⟩ := hm
    by_cases hlt : a < b
    · simp [memWrite, hlt, Memory.below, ha, hb]
      simpa using hr
    · by_cases heq : a = b
      · subst heq
        simp [memWrite, Memory.below, ha]
        simpa using hr
      · have := ih hr
        simp [memWrite, hlt, heq, Memory.below, hb]
        simpa using this

/-- What a host pixel write of one byte can do: it changes `PIX` alone, at its address, and only below
`PIXMEM_BYTES` (R245). -/
theorem pixWriteByte_cases (s : State) (a : Nat) (v : Byte) :
    (a < s.params.pixmemBytes ∧ pixWriteByte s a v = { s with pix := memWrite s.pix a v }) ∨
      (¬ a < s.params.pixmemBytes ∧ pixWriteByte s a v = s) := by
  unfold pixWriteByte
  split
  · exact .inl ⟨‹_›, rfl⟩
  · exact .inr ⟨‹_›, rfl⟩

/-- A host pixel write changes `PIX` alone. -/
theorem pixWriteBytes_frame (s : State) (a : Nat) (bytes : List Byte) :
    pixWriteBytes s a bytes = { s with pix := (pixWriteBytes s a bytes).pix } := by
  induction bytes generalizing s a with
  | nil => rfl
  | cons v rest ih =>
    simp only [pixWriteBytes]
    rw [ih]
    obtain ⟨_, h⟩ | ⟨_, h⟩ := pixWriteByte_cases s a v <;> rw [h]

/-- A host pixel write keeps the canonical form and the populated range of `PIX`. -/
theorem pixWriteBytes_wf (s : State) (a : Nat) (bytes : List Byte) (hm : Memory.wf s.pix = true)
    (hb : Memory.below s.params.pixmemBytes s.pix = true) :
    Memory.wf (pixWriteBytes s a bytes).pix = true ∧
      Memory.below s.params.pixmemBytes (pixWriteBytes s a bytes).pix = true := by
  induction bytes generalizing s a with
  | nil => exact ⟨hm, hb⟩
  | cons v rest ih =>
    simp only [pixWriteBytes]
    obtain ⟨ha, h⟩ | ⟨_, h⟩ := pixWriteByte_cases s a v <;> rw [h]
    · exact ih { s with pix := memWrite s.pix a v } (a + 1) (memWrite_wf _ _ _ hm) (memWrite_below _ _ _ _ ha hb)
    · exact ih s (a + 1) hm hb

/-- Reset's pixel memory is canonical. -/
theorem reset_pix_wf : Memory.wf State.reset.pix = true := rfl

end Sys2Proof.Machine
end

