-- ==== Sys2Proof/Laws/State.lean ====
section
/-! SUPPORT. One lemma per field for each shared update of the state, so that no proof unfolds a record update. -/

namespace Sys2Proof.Machine

/-! ## Acceptance (R240) -/

@[simp] theorem accept_family (s : State) : (accept s).family = s.family := rfl
@[simp] theorem accept_numLines (s : State) : (accept s).numLines = s.numLines := rfl
@[simp] theorem accept_hPixels (s : State) : (accept s).hPixels = s.hPixels := rfl
@[simp] theorem accept_tBlank (s : State) : (accept s).tBlank = s.tBlank := rfl
@[simp] theorem accept_tScan (s : State) : (accept s).tScan = s.tScan := rfl
@[simp] theorem accept_tSync (s : State) : (accept s).tSync = s.tSync := rfl
@[simp] theorem accept_visCode (s : State) : (accept s).visCode = s.visCode := rfl
@[simp] theorem accept_sampleRate (s : State) : (accept s).sampleRate = s.sampleRate := rfl
@[simp] theorem accept_t0Lo (s : State) : (accept s).t0Lo = s.t0Lo := rfl
@[simp] theorem accept_t0Hi (s : State) : (accept s).t0Hi = s.t0Hi := rfl
@[simp] theorem accept_pixLen (s : State) : (accept s).pixLen = s.pixLen := rfl
@[simp] theorem accept_line (s : State) : (accept s).line = s.line := rfl
@[simp] theorem accept_hpos (s : State) : (accept s).hpos = s.hpos := rfl
@[simp] theorem accept_status (s : State) : (accept s).status = .busy := rfl
@[simp] theorem accept_err (s : State) : (accept s).err = .none := rfl
@[simp] theorem accept_segCount (s : State) : (accept s).segCount = 0 := rfl
@[simp] theorem accept_sampCount (s : State) : (accept s).sampCount = 0 := rfl
@[simp] theorem accept_sampEmit (s : State) : (accept s).sampEmit = 0 := rfl
@[simp] theorem accept_freq0 (s : State) : (accept s).freq0 = s.freq0 := rfl
@[simp] theorem accept_freq1 (s : State) : (accept s).freq1 = s.freq1 := rfl
@[simp] theorem accept_freq2 (s : State) : (accept s).freq2 = s.freq2 := rfl
@[simp] theorem accept_segPtr (s : State) : (accept s).segPtr = 0 := rfl
@[simp] theorem accept_sub (s : State) : (accept s).sub = 0 := rfl
@[simp] theorem accept_j (s : State) : (accept s).j = 0 := rfl
@[simp] theorem accept_n (s : State) : (accept s).n = 0 := rfl
@[simp] theorem accept_tAcc (s : State) : (accept s).tAcc = startTime s := rfl
@[simp] theorem accept_prep (s : State) : (accept s).prep = s.prep := rfl
@[simp] theorem accept_sched (s : State) : (accept s).sched = s.sched := rfl
@[simp] theorem accept_outLive (s : State) : (accept s).outLive = [] := rfl
@[simp] theorem accept_outPcm (s : State) : (accept s).outPcm = [] := rfl
@[simp] theorem accept_pix (s : State) : (accept s).pix = s.pix := rfl
@[simp] theorem accept_running (s : State) : (accept s).running = s.running := rfl
@[simp] theorem accept_phase (s : State) : (accept s).phase = s.phase := rfl
@[simp] theorem accept_view (s : State) : (accept s).view = s.view := rfl
@[simp] theorem accept_params (s : State) : (accept s).params = s.params := rfl
@[simp] theorem accept_host (s : State) : (accept s).host = s.host := rfl
@[simp] theorem accept_hostData (s : State) : (accept s).hostData = s.hostData := rfl
@[simp] theorem accept_readFault (s : State) : (accept s).readFault = s.readFault := rfl

/-! ## Raising an error (R274) -/

@[simp] theorem raiseError_family (e : ErrCode) (s : State) : (raiseError e s).family = s.family := rfl
@[simp] theorem raiseError_numLines (e : ErrCode) (s : State) : (raiseError e s).numLines = s.numLines := rfl
@[simp] theorem raiseError_hPixels (e : ErrCode) (s : State) : (raiseError e s).hPixels = s.hPixels := rfl
@[simp] theorem raiseError_tBlank (e : ErrCode) (s : State) : (raiseError e s).tBlank = s.tBlank := rfl
@[simp] theorem raiseError_tScan (e : ErrCode) (s : State) : (raiseError e s).tScan = s.tScan := rfl
@[simp] theorem raiseError_tSync (e : ErrCode) (s : State) : (raiseError e s).tSync = s.tSync := rfl
@[simp] theorem raiseError_visCode (e : ErrCode) (s : State) : (raiseError e s).visCode = s.visCode := rfl
@[simp] theorem raiseError_sampleRate (e : ErrCode) (s : State) : (raiseError e s).sampleRate = s.sampleRate := rfl
@[simp] theorem raiseError_t0Lo (e : ErrCode) (s : State) : (raiseError e s).t0Lo = s.t0Lo := rfl
@[simp] theorem raiseError_t0Hi (e : ErrCode) (s : State) : (raiseError e s).t0Hi = s.t0Hi := rfl
@[simp] theorem raiseError_pixLen (e : ErrCode) (s : State) : (raiseError e s).pixLen = s.pixLen := rfl
@[simp] theorem raiseError_line (e : ErrCode) (s : State) : (raiseError e s).line = s.line := rfl
@[simp] theorem raiseError_hpos (e : ErrCode) (s : State) : (raiseError e s).hpos = s.hpos := rfl
@[simp] theorem raiseError_status (e : ErrCode) (s : State) : (raiseError e s).status = .error := rfl
@[simp] theorem raiseError_err (e : ErrCode) (s : State) : (raiseError e s).err = e := rfl
@[simp] theorem raiseError_segCount (e : ErrCode) (s : State) : (raiseError e s).segCount = 0 := rfl
@[simp] theorem raiseError_sampCount (e : ErrCode) (s : State) : (raiseError e s).sampCount = 0 := rfl
@[simp] theorem raiseError_sampEmit (e : ErrCode) (s : State) : (raiseError e s).sampEmit = 0 := rfl
@[simp] theorem raiseError_freq0 (e : ErrCode) (s : State) : (raiseError e s).freq0 = s.freq0 := rfl
@[simp] theorem raiseError_freq1 (e : ErrCode) (s : State) : (raiseError e s).freq1 = s.freq1 := rfl
@[simp] theorem raiseError_freq2 (e : ErrCode) (s : State) : (raiseError e s).freq2 = s.freq2 := rfl
@[simp] theorem raiseError_segPtr (e : ErrCode) (s : State) : (raiseError e s).segPtr = s.segPtr := rfl
@[simp] theorem raiseError_sub (e : ErrCode) (s : State) : (raiseError e s).sub = s.sub := rfl
@[simp] theorem raiseError_j (e : ErrCode) (s : State) : (raiseError e s).j = s.j := rfl
@[simp] theorem raiseError_n (e : ErrCode) (s : State) : (raiseError e s).n = s.n := rfl
@[simp] theorem raiseError_tAcc (e : ErrCode) (s : State) : (raiseError e s).tAcc = s.tAcc := rfl
@[simp] theorem raiseError_prep (e : ErrCode) (s : State) : (raiseError e s).prep = s.prep := rfl
@[simp] theorem raiseError_sched (e : ErrCode) (s : State) : (raiseError e s).sched = s.sched := rfl
@[simp] theorem raiseError_outLive (e : ErrCode) (s : State) : (raiseError e s).outLive = [] := rfl
@[simp] theorem raiseError_outPcm (e : ErrCode) (s : State) : (raiseError e s).outPcm = [] := rfl
@[simp] theorem raiseError_pix (e : ErrCode) (s : State) : (raiseError e s).pix = s.pix := rfl
@[simp] theorem raiseError_running (e : ErrCode) (s : State) : (raiseError e s).running = s.running := rfl
@[simp] theorem raiseError_phase (e : ErrCode) (s : State) : (raiseError e s).phase = s.phase := rfl
@[simp] theorem raiseError_view (e : ErrCode) (s : State) : (raiseError e s).view = s.view := rfl
@[simp] theorem raiseError_params (e : ErrCode) (s : State) : (raiseError e s).params = s.params := rfl
@[simp] theorem raiseError_host (e : ErrCode) (s : State) : (raiseError e s).host = s.host := rfl
@[simp] theorem raiseError_hostData (e : ErrCode) (s : State) : (raiseError e s).hostData = s.hostData := rfl
@[simp] theorem raiseError_readFault (e : ErrCode) (s : State) : (raiseError e s).readFault = s.readFault := rfl

/-! ## Success (R50) -/

@[simp] theorem flagsDone_family (s : State) : (flagsDone s).family = s.family := rfl
@[simp] theorem flagsDone_numLines (s : State) : (flagsDone s).numLines = s.numLines := rfl
@[simp] theorem flagsDone_hPixels (s : State) : (flagsDone s).hPixels = s.hPixels := rfl
@[simp] theorem flagsDone_tBlank (s : State) : (flagsDone s).tBlank = s.tBlank := rfl
@[simp] theorem flagsDone_tScan (s : State) : (flagsDone s).tScan = s.tScan := rfl
@[simp] theorem flagsDone_tSync (s : State) : (flagsDone s).tSync = s.tSync := rfl
@[simp] theorem flagsDone_visCode (s : State) : (flagsDone s).visCode = s.visCode := rfl
@[simp] theorem flagsDone_sampleRate (s : State) : (flagsDone s).sampleRate = s.sampleRate := rfl
@[simp] theorem flagsDone_t0Lo (s : State) : (flagsDone s).t0Lo = s.t0Lo := rfl
@[simp] theorem flagsDone_t0Hi (s : State) : (flagsDone s).t0Hi = s.t0Hi := rfl
@[simp] theorem flagsDone_pixLen (s : State) : (flagsDone s).pixLen = s.pixLen := rfl
@[simp] theorem flagsDone_line (s : State) : (flagsDone s).line = s.line := rfl
@[simp] theorem flagsDone_hpos (s : State) : (flagsDone s).hpos = s.hpos := rfl
@[simp] theorem flagsDone_status (s : State) : (flagsDone s).status = .done := rfl
@[simp] theorem flagsDone_err (s : State) : (flagsDone s).err = s.err := rfl
@[simp] theorem flagsDone_segCount (s : State) : (flagsDone s).segCount = s.segCount := rfl
@[simp] theorem flagsDone_sampCount (s : State) : (flagsDone s).sampCount = s.sampCount := rfl
@[simp] theorem flagsDone_sampEmit (s : State) : (flagsDone s).sampEmit = s.sampEmit := rfl
@[simp] theorem flagsDone_freq0 (s : State) : (flagsDone s).freq0 = s.freq0 := rfl
@[simp] theorem flagsDone_freq1 (s : State) : (flagsDone s).freq1 = s.freq1 := rfl
@[simp] theorem flagsDone_freq2 (s : State) : (flagsDone s).freq2 = s.freq2 := rfl
@[simp] theorem flagsDone_segPtr (s : State) : (flagsDone s).segPtr = s.segPtr := rfl
@[simp] theorem flagsDone_sub (s : State) : (flagsDone s).sub = s.sub := rfl
@[simp] theorem flagsDone_j (s : State) : (flagsDone s).j = s.j := rfl
@[simp] theorem flagsDone_n (s : State) : (flagsDone s).n = s.n := rfl
@[simp] theorem flagsDone_tAcc (s : State) : (flagsDone s).tAcc = s.tAcc := rfl
@[simp] theorem flagsDone_prep (s : State) : (flagsDone s).prep = s.prep := rfl
@[simp] theorem flagsDone_sched (s : State) : (flagsDone s).sched = s.sched := rfl
@[simp] theorem flagsDone_outLive (s : State) : (flagsDone s).outLive = s.outLive := rfl
@[simp] theorem flagsDone_outPcm (s : State) : (flagsDone s).outPcm = s.outPcm := rfl
@[simp] theorem flagsDone_pix (s : State) : (flagsDone s).pix = s.pix := rfl
@[simp] theorem flagsDone_running (s : State) : (flagsDone s).running = s.running := rfl
@[simp] theorem flagsDone_phase (s : State) : (flagsDone s).phase = s.phase := rfl
@[simp] theorem flagsDone_view (s : State) : (flagsDone s).view = s.view := rfl
@[simp] theorem flagsDone_params (s : State) : (flagsDone s).params = s.params := rfl
@[simp] theorem flagsDone_host (s : State) : (flagsDone s).host = s.host := rfl
@[simp] theorem flagsDone_hostData (s : State) : (flagsDone s).hostData = s.hostData := rfl
@[simp] theorem flagsDone_readFault (s : State) : (flagsDone s).readFault = s.readFault := rfl

/-! ## The end of CLEAR (R241) -/

@[simp] theorem flagsIdle_family (s : State) : (flagsIdle s).family = s.family := rfl
@[simp] theorem flagsIdle_numLines (s : State) : (flagsIdle s).numLines = s.numLines := rfl
@[simp] theorem flagsIdle_hPixels (s : State) : (flagsIdle s).hPixels = s.hPixels := rfl
@[simp] theorem flagsIdle_tBlank (s : State) : (flagsIdle s).tBlank = s.tBlank := rfl
@[simp] theorem flagsIdle_tScan (s : State) : (flagsIdle s).tScan = s.tScan := rfl
@[simp] theorem flagsIdle_tSync (s : State) : (flagsIdle s).tSync = s.tSync := rfl
@[simp] theorem flagsIdle_visCode (s : State) : (flagsIdle s).visCode = s.visCode := rfl
@[simp] theorem flagsIdle_sampleRate (s : State) : (flagsIdle s).sampleRate = s.sampleRate := rfl
@[simp] theorem flagsIdle_t0Lo (s : State) : (flagsIdle s).t0Lo = s.t0Lo := rfl
@[simp] theorem flagsIdle_t0Hi (s : State) : (flagsIdle s).t0Hi = s.t0Hi := rfl
@[simp] theorem flagsIdle_pixLen (s : State) : (flagsIdle s).pixLen = s.pixLen := rfl
@[simp] theorem flagsIdle_line (s : State) : (flagsIdle s).line = s.line := rfl
@[simp] theorem flagsIdle_hpos (s : State) : (flagsIdle s).hpos = s.hpos := rfl
@[simp] theorem flagsIdle_status (s : State) : (flagsIdle s).status = .idle := rfl
@[simp] theorem flagsIdle_err (s : State) : (flagsIdle s).err = s.err := rfl
@[simp] theorem flagsIdle_segCount (s : State) : (flagsIdle s).segCount = s.segCount := rfl
@[simp] theorem flagsIdle_sampCount (s : State) : (flagsIdle s).sampCount = s.sampCount := rfl
@[simp] theorem flagsIdle_sampEmit (s : State) : (flagsIdle s).sampEmit = s.sampEmit := rfl
@[simp] theorem flagsIdle_freq0 (s : State) : (flagsIdle s).freq0 = s.freq0 := rfl
@[simp] theorem flagsIdle_freq1 (s : State) : (flagsIdle s).freq1 = s.freq1 := rfl
@[simp] theorem flagsIdle_freq2 (s : State) : (flagsIdle s).freq2 = s.freq2 := rfl
@[simp] theorem flagsIdle_segPtr (s : State) : (flagsIdle s).segPtr = s.segPtr := rfl
@[simp] theorem flagsIdle_sub (s : State) : (flagsIdle s).sub = s.sub := rfl
@[simp] theorem flagsIdle_j (s : State) : (flagsIdle s).j = s.j := rfl
@[simp] theorem flagsIdle_n (s : State) : (flagsIdle s).n = s.n := rfl
@[simp] theorem flagsIdle_tAcc (s : State) : (flagsIdle s).tAcc = s.tAcc := rfl
@[simp] theorem flagsIdle_prep (s : State) : (flagsIdle s).prep = s.prep := rfl
@[simp] theorem flagsIdle_sched (s : State) : (flagsIdle s).sched = s.sched := rfl
@[simp] theorem flagsIdle_outLive (s : State) : (flagsIdle s).outLive = s.outLive := rfl
@[simp] theorem flagsIdle_outPcm (s : State) : (flagsIdle s).outPcm = s.outPcm := rfl
@[simp] theorem flagsIdle_pix (s : State) : (flagsIdle s).pix = s.pix := rfl
@[simp] theorem flagsIdle_running (s : State) : (flagsIdle s).running = s.running := rfl
@[simp] theorem flagsIdle_phase (s : State) : (flagsIdle s).phase = s.phase := rfl
@[simp] theorem flagsIdle_view (s : State) : (flagsIdle s).view = s.view := rfl
@[simp] theorem flagsIdle_params (s : State) : (flagsIdle s).params = s.params := rfl
@[simp] theorem flagsIdle_host (s : State) : (flagsIdle s).host = s.host := rfl
@[simp] theorem flagsIdle_hostData (s : State) : (flagsIdle s).hostData = s.hostData := rfl
@[simp] theorem flagsIdle_readFault (s : State) : (flagsIdle s).readFault = s.readFault := rfl

/-! ## Emitting a record (R8) -/

@[simp] theorem emitLive_family (r : Record) (s : State) : (emitLive r s).family = s.family := rfl
@[simp] theorem emitLive_numLines (r : Record) (s : State) : (emitLive r s).numLines = s.numLines := rfl
@[simp] theorem emitLive_hPixels (r : Record) (s : State) : (emitLive r s).hPixels = s.hPixels := rfl
@[simp] theorem emitLive_tBlank (r : Record) (s : State) : (emitLive r s).tBlank = s.tBlank := rfl
@[simp] theorem emitLive_tScan (r : Record) (s : State) : (emitLive r s).tScan = s.tScan := rfl
@[simp] theorem emitLive_tSync (r : Record) (s : State) : (emitLive r s).tSync = s.tSync := rfl
@[simp] theorem emitLive_visCode (r : Record) (s : State) : (emitLive r s).visCode = s.visCode := rfl
@[simp] theorem emitLive_sampleRate (r : Record) (s : State) : (emitLive r s).sampleRate = s.sampleRate := rfl
@[simp] theorem emitLive_t0Lo (r : Record) (s : State) : (emitLive r s).t0Lo = s.t0Lo := rfl
@[simp] theorem emitLive_t0Hi (r : Record) (s : State) : (emitLive r s).t0Hi = s.t0Hi := rfl
@[simp] theorem emitLive_pixLen (r : Record) (s : State) : (emitLive r s).pixLen = s.pixLen := rfl
@[simp] theorem emitLive_line (r : Record) (s : State) : (emitLive r s).line = s.line := rfl
@[simp] theorem emitLive_hpos (r : Record) (s : State) : (emitLive r s).hpos = s.hpos := rfl
@[simp] theorem emitLive_status (r : Record) (s : State) : (emitLive r s).status = s.status := rfl
@[simp] theorem emitLive_err (r : Record) (s : State) : (emitLive r s).err = s.err := rfl
@[simp] theorem emitLive_segCount (r : Record) (s : State) : (emitLive r s).segCount = s.segCount := rfl
@[simp] theorem emitLive_sampCount (r : Record) (s : State) : (emitLive r s).sampCount = s.sampCount := rfl
@[simp] theorem emitLive_sampEmit (r : Record) (s : State) : (emitLive r s).sampEmit = s.sampEmit := rfl
@[simp] theorem emitLive_freq0 (r : Record) (s : State) : (emitLive r s).freq0 = s.freq0 := rfl
@[simp] theorem emitLive_freq1 (r : Record) (s : State) : (emitLive r s).freq1 = s.freq1 := rfl
@[simp] theorem emitLive_freq2 (r : Record) (s : State) : (emitLive r s).freq2 = s.freq2 := rfl
@[simp] theorem emitLive_segPtr (r : Record) (s : State) : (emitLive r s).segPtr = s.segPtr := rfl
@[simp] theorem emitLive_sub (r : Record) (s : State) : (emitLive r s).sub = s.sub := rfl
@[simp] theorem emitLive_j (r : Record) (s : State) : (emitLive r s).j = s.j := rfl
@[simp] theorem emitLive_n (r : Record) (s : State) : (emitLive r s).n = s.n := rfl
@[simp] theorem emitLive_tAcc (r : Record) (s : State) : (emitLive r s).tAcc = s.tAcc := rfl
@[simp] theorem emitLive_prep (r : Record) (s : State) : (emitLive r s).prep = s.prep := rfl
@[simp] theorem emitLive_sched (r : Record) (s : State) : (emitLive r s).sched = s.sched := rfl
@[simp] theorem emitLive_outLive (r : Record) (s : State) : (emitLive r s).outLive = s.outLive ++ [r] := rfl
@[simp] theorem emitLive_outPcm (r : Record) (s : State) : (emitLive r s).outPcm = s.outPcm := rfl
@[simp] theorem emitLive_pix (r : Record) (s : State) : (emitLive r s).pix = s.pix := rfl
@[simp] theorem emitLive_running (r : Record) (s : State) : (emitLive r s).running = s.running := rfl
@[simp] theorem emitLive_phase (r : Record) (s : State) : (emitLive r s).phase = s.phase := rfl
@[simp] theorem emitLive_view (r : Record) (s : State) : (emitLive r s).view = s.view := rfl
@[simp] theorem emitLive_params (r : Record) (s : State) : (emitLive r s).params = s.params := rfl
@[simp] theorem emitLive_host (r : Record) (s : State) : (emitLive r s).host = s.host := rfl
@[simp] theorem emitLive_hostData (r : Record) (s : State) : (emitLive r s).hostData = s.hostData := rfl
@[simp] theorem emitLive_readFault (r : Record) (s : State) : (emitLive r s).readFault = s.readFault := rfl

/-! ## Moving to the next segment (R39) -/

@[simp] theorem nextSegment_family (s : State) : (nextSegment s).family = s.family := rfl
@[simp] theorem nextSegment_numLines (s : State) : (nextSegment s).numLines = s.numLines := rfl
@[simp] theorem nextSegment_hPixels (s : State) : (nextSegment s).hPixels = s.hPixels := rfl
@[simp] theorem nextSegment_tBlank (s : State) : (nextSegment s).tBlank = s.tBlank := rfl
@[simp] theorem nextSegment_tScan (s : State) : (nextSegment s).tScan = s.tScan := rfl
@[simp] theorem nextSegment_tSync (s : State) : (nextSegment s).tSync = s.tSync := rfl
@[simp] theorem nextSegment_visCode (s : State) : (nextSegment s).visCode = s.visCode := rfl
@[simp] theorem nextSegment_sampleRate (s : State) : (nextSegment s).sampleRate = s.sampleRate := rfl
@[simp] theorem nextSegment_t0Lo (s : State) : (nextSegment s).t0Lo = s.t0Lo := rfl
@[simp] theorem nextSegment_t0Hi (s : State) : (nextSegment s).t0Hi = s.t0Hi := rfl
@[simp] theorem nextSegment_pixLen (s : State) : (nextSegment s).pixLen = s.pixLen := rfl
@[simp] theorem nextSegment_line (s : State) : (nextSegment s).line = s.line := rfl
@[simp] theorem nextSegment_hpos (s : State) : (nextSegment s).hpos = s.hpos := rfl
@[simp] theorem nextSegment_status (s : State) : (nextSegment s).status = s.status := rfl
@[simp] theorem nextSegment_err (s : State) : (nextSegment s).err = s.err := rfl
@[simp] theorem nextSegment_segCount (s : State) : (nextSegment s).segCount = s.segCount := rfl
@[simp] theorem nextSegment_sampCount (s : State) : (nextSegment s).sampCount = s.sampCount := rfl
@[simp] theorem nextSegment_sampEmit (s : State) : (nextSegment s).sampEmit = s.sampEmit := rfl
@[simp] theorem nextSegment_freq0 (s : State) : (nextSegment s).freq0 = s.freq0 := rfl
@[simp] theorem nextSegment_freq1 (s : State) : (nextSegment s).freq1 = s.freq1 := rfl
@[simp] theorem nextSegment_freq2 (s : State) : (nextSegment s).freq2 = s.freq2 := rfl
@[simp] theorem nextSegment_segPtr (s : State) : (nextSegment s).segPtr = s.segPtr + 1 := rfl
@[simp] theorem nextSegment_sub (s : State) : (nextSegment s).sub = 0 := rfl
@[simp] theorem nextSegment_j (s : State) : (nextSegment s).j = 0 := rfl
@[simp] theorem nextSegment_n (s : State) : (nextSegment s).n = s.n := rfl
@[simp] theorem nextSegment_tAcc (s : State) : (nextSegment s).tAcc = s.tAcc := rfl
@[simp] theorem nextSegment_prep (s : State) : (nextSegment s).prep = s.prep := rfl
@[simp] theorem nextSegment_sched (s : State) : (nextSegment s).sched = s.sched := rfl
@[simp] theorem nextSegment_outLive (s : State) : (nextSegment s).outLive = s.outLive := rfl
@[simp] theorem nextSegment_outPcm (s : State) : (nextSegment s).outPcm = s.outPcm := rfl
@[simp] theorem nextSegment_pix (s : State) : (nextSegment s).pix = s.pix := rfl
@[simp] theorem nextSegment_running (s : State) : (nextSegment s).running = s.running := rfl
@[simp] theorem nextSegment_phase (s : State) : (nextSegment s).phase = s.phase := rfl
@[simp] theorem nextSegment_view (s : State) : (nextSegment s).view = s.view := rfl
@[simp] theorem nextSegment_params (s : State) : (nextSegment s).params = s.params := rfl
@[simp] theorem nextSegment_host (s : State) : (nextSegment s).host = s.host := rfl
@[simp] theorem nextSegment_hostData (s : State) : (nextSegment s).hostData = s.hostData := rfl
@[simp] theorem nextSegment_readFault (s : State) : (nextSegment s).readFault = s.readFault := rfl

/-! ## Putting a rendered buffer back (R228) -/

@[simp] theorem withPcm_family (b : PcmBuf) (s : State) : (withPcm b s).family = s.family := rfl
@[simp] theorem withPcm_numLines (b : PcmBuf) (s : State) : (withPcm b s).numLines = s.numLines := rfl
@[simp] theorem withPcm_hPixels (b : PcmBuf) (s : State) : (withPcm b s).hPixels = s.hPixels := rfl
@[simp] theorem withPcm_tBlank (b : PcmBuf) (s : State) : (withPcm b s).tBlank = s.tBlank := rfl
@[simp] theorem withPcm_tScan (b : PcmBuf) (s : State) : (withPcm b s).tScan = s.tScan := rfl
@[simp] theorem withPcm_tSync (b : PcmBuf) (s : State) : (withPcm b s).tSync = s.tSync := rfl
@[simp] theorem withPcm_visCode (b : PcmBuf) (s : State) : (withPcm b s).visCode = s.visCode := rfl
@[simp] theorem withPcm_sampleRate (b : PcmBuf) (s : State) : (withPcm b s).sampleRate = s.sampleRate := rfl
@[simp] theorem withPcm_t0Lo (b : PcmBuf) (s : State) : (withPcm b s).t0Lo = s.t0Lo := rfl
@[simp] theorem withPcm_t0Hi (b : PcmBuf) (s : State) : (withPcm b s).t0Hi = s.t0Hi := rfl
@[simp] theorem withPcm_pixLen (b : PcmBuf) (s : State) : (withPcm b s).pixLen = s.pixLen := rfl
@[simp] theorem withPcm_line (b : PcmBuf) (s : State) : (withPcm b s).line = s.line := rfl
@[simp] theorem withPcm_hpos (b : PcmBuf) (s : State) : (withPcm b s).hpos = s.hpos := rfl
@[simp] theorem withPcm_status (b : PcmBuf) (s : State) : (withPcm b s).status = s.status := rfl
@[simp] theorem withPcm_err (b : PcmBuf) (s : State) : (withPcm b s).err = s.err := rfl
@[simp] theorem withPcm_segCount (b : PcmBuf) (s : State) : (withPcm b s).segCount = s.segCount := rfl
@[simp] theorem withPcm_sampCount (b : PcmBuf) (s : State) : (withPcm b s).sampCount = s.sampCount := rfl
@[simp] theorem withPcm_sampEmit (b : PcmBuf) (s : State) : (withPcm b s).sampEmit = s.sampEmit := rfl
@[simp] theorem withPcm_freq0 (b : PcmBuf) (s : State) : (withPcm b s).freq0 = s.freq0 := rfl
@[simp] theorem withPcm_freq1 (b : PcmBuf) (s : State) : (withPcm b s).freq1 = s.freq1 := rfl
@[simp] theorem withPcm_freq2 (b : PcmBuf) (s : State) : (withPcm b s).freq2 = s.freq2 := rfl
@[simp] theorem withPcm_segPtr (b : PcmBuf) (s : State) : (withPcm b s).segPtr = s.segPtr := rfl
@[simp] theorem withPcm_sub (b : PcmBuf) (s : State) : (withPcm b s).sub = s.sub := rfl
@[simp] theorem withPcm_j (b : PcmBuf) (s : State) : (withPcm b s).j = s.j := rfl
@[simp] theorem withPcm_n (b : PcmBuf) (s : State) : (withPcm b s).n = b.n := rfl
@[simp] theorem withPcm_tAcc (b : PcmBuf) (s : State) : (withPcm b s).tAcc = s.tAcc := rfl
@[simp] theorem withPcm_prep (b : PcmBuf) (s : State) : (withPcm b s).prep = s.prep := rfl
@[simp] theorem withPcm_sched (b : PcmBuf) (s : State) : (withPcm b s).sched = s.sched := rfl
@[simp] theorem withPcm_outLive (b : PcmBuf) (s : State) : (withPcm b s).outLive = s.outLive := rfl
@[simp] theorem withPcm_outPcm (b : PcmBuf) (s : State) : (withPcm b s).outPcm = b.samples := rfl
@[simp] theorem withPcm_pix (b : PcmBuf) (s : State) : (withPcm b s).pix = s.pix := rfl
@[simp] theorem withPcm_running (b : PcmBuf) (s : State) : (withPcm b s).running = s.running := rfl
@[simp] theorem withPcm_phase (b : PcmBuf) (s : State) : (withPcm b s).phase = s.phase := rfl
@[simp] theorem withPcm_view (b : PcmBuf) (s : State) : (withPcm b s).view = s.view := rfl
@[simp] theorem withPcm_params (b : PcmBuf) (s : State) : (withPcm b s).params = s.params := rfl
@[simp] theorem withPcm_host (b : PcmBuf) (s : State) : (withPcm b s).host = s.host := rfl
@[simp] theorem withPcm_hostData (b : PcmBuf) (s : State) : (withPcm b s).hostData = s.hostData := rfl
@[simp] theorem withPcm_readFault (b : PcmBuf) (s : State) : (withPcm b s).readFault = s.readFault := rfl

/-- The start time is read from registers no command writes (R29, R48). -/
@[simp] theorem startTime_accept (s : State) : startTime (accept s) = startTime s := rfl
@[simp] theorem startTime_raiseError (e : ErrCode) (s : State) : startTime (raiseError e s) = startTime s := rfl
@[simp] theorem startTime_flagsDone (s : State) : startTime (flagsDone s) = startTime s := rfl
@[simp] theorem startTime_flagsIdle (s : State) : startTime (flagsIdle s) = startTime s := rfl
@[simp] theorem startTime_emitLive (r : Record) (s : State) : startTime (emitLive r s) = startTime s := rfl
@[simp] theorem startTime_nextSegment (s : State) : startTime (nextSegment s) = startTime s := rfl
@[simp] theorem startTime_withPcm (b : PcmBuf) (s : State) : startTime (withPcm b s) = startTime s := rfl

end Sys2Proof.Machine
end

