-- ==== Sys2Proof/Laws/Ops.lean ====
section
/-! SUPPORT. For each shared operation, once, everything it can do when it answers a next state. -/

namespace Sys2Proof.Machine

/-- Going on from a next state. -/
theorem andThen_next (o : Host.Outcome State Fault Refusal) (f : State → Host.Outcome State Fault Refusal)
    (t : State) : andThen o f = .next t ↔ ∃ s, o = .next s ∧ f s = .next t := by
  cases o <;> simp [andThen]

/-- A command is ignored while `BUSY`, and else its body runs from the accepted state (R240). -/
theorem runCommand_next (f : State → Host.Outcome State Fault Refusal) (s t : State) :
    runCommand f s = .next t ↔
      (s.status = .busy ∧ t = s) ∨ (s.status ≠ .busy ∧ f (accept s) = .next t) := by
  unfold runCommand
  split
  · rename_i h
    simp only [Host.Outcome.next.injEq, h, true_and, ne_eq, not_true_eq_false, false_and, or_false]
    exact eq_comm
  · rename_i h
    simp [h]

/-- A command that is not ignored runs its body from the accepted state. -/
theorem runCommand_accepted (f : State → Host.Outcome State Fault Refusal) (s : State) (h : s.status ≠ .busy) :
    runCommand f s = f (accept s) := by
  simp [runCommand, h]

/-- What a `MAP_*` command's body can do: write its registers from the pixel's bytes, or raise `InputSizeMismatch`
(R136). -/
theorem mapPixel_next (w : Nat → Nat → Nat → State → State) (s t : State) (h : mapPixel w s = .next t) :
    (pixInBounds s.pixLen.toNat (pixBase s.hPixels.toNat s.line.toNat s.hpos.toNat) = true ∧
        ∃ red green blue, pixColours s.pix (pixBase s.hPixels.toNat s.line.toNat s.hpos.toNat)
            = some (red, green, blue) ∧
          t = flagsDone (w red.toNat green.toNat blue.toNat s)) ∨
      (pixInBounds s.pixLen.toNat (pixBase s.hPixels.toNat s.line.toNat s.hpos.toNat) = false ∧
        t = raiseError .inputSizeMismatch s) := by
  unfold mapPixel at h
  split at h
  · rename_i hb
    split at h
    · rename_i red green blue hc
      cases h
      exact .inl ⟨hb, red, green, blue, hc, rfl⟩
    · cases h
  · rename_i hb
    cases h
    exact .inr ⟨by simpa using hb, rfl⟩

/-- What the checks and the building of an encode command can do (R277, R159, R199, R228). -/
theorem checkAndBuild_next (s t : State) (h : checkAndBuild s = .next t) :
    (∃ e, encodeError s.running s = some e ∧ t = raiseError e s) ∨
      (s.running = .hdr ∧ t = { s with sched := header s.visCode, phase := .project }) ∨
      (s.running ≠ .hdr ∧ encodeError s.running s = none ∧ ∃ fam, familyOf s.family = some fam ∧
        imageWritten s.pix s.numLines.toNat s.hPixels.toNat = true ∧
        t = allocatePcm s.running
          { s with prep := prepared fam s, sched := schedule fam s, phase := .project }) := by
  unfold checkAndBuild at h
  split at h
  · rename_i e he
    cases h
    exact .inl ⟨e, he, rfl⟩
  · rename_i he
    unfold build at h
    split at h
    · rename_i hr
      cases h
      exact .inr (.inl ⟨hr, rfl⟩)
    · rename_i hr
      split at h
      · rename_i hf
        exfalso
        unfold encodeError at he
        split at he
        · exact hr (by assumption)
        · simp [hf] at he
      · rename_i fam hf
        unfold buildImage at h
        split at h
        · rename_i hw
          cases h
          exact .inr (.inr ⟨hr, he, fam, hf, hw, rfl⟩)
        · cases h

/-- What an accepted encode command can do in its one step: in the atomic view all of it, in the stepwise views the
acceptance alone (R9). -/
theorem encodeBody_next (c : EncCmd) (s t : State) (h : encodeBody c s = .next t) :
    (s.view = .atomic ∧ ∃ b, checkAndBuild { s with running := c, phase := .checks } = .next b ∧
        ((b.status = .busy ∧ t = projectAndEnd b) ∨ (b.status ≠ .busy ∧ t = b))) ∨
      (s.view ≠ .atomic ∧ t = { s with running := c, phase := .checks }) := by
  unfold encodeBody at h
  split at h
  · rename_i hv
    rw [andThen_next] at h
    obtain ⟨b, hb, ht⟩ := h
    refine .inl ⟨hv, b, hb, ?_⟩
    unfold projectIfBusy at ht
    split at ht <;> cases ht
    · exact .inl ⟨‹_›, rfl⟩
    · exact .inr ⟨‹_›, rfl⟩
  all_goals
    rename_i hv
    cases h
    exact .inr ⟨by simp [hv], rfl⟩

/-- What the engine's turn can do (R202, R232, R280, R301). -/
theorem engineTurn_next (s t : State) (h : engineTurn s = .next t) :
    (s.status ≠ .busy ∧ t = s) ∨
      (s.status = .busy ∧ s.phase = .checks ∧ checkAndBuild s = .next t) ∨
      (s.status = .busy ∧ s.phase = .project ∧ ∃ seg, s.sched[s.segPtr]? = some seg ∧
        (segmentInstr seg).flaw = none ∧ t = runSegment seg s) ∨
      (s.status = .busy ∧ s.phase = .project ∧ s.sched[s.segPtr]? = none ∧
        t = endCommand (if s.running = .pcm then s else emitLive (.span (startTime s) s.tAcc) s)) := by
  unfold engineTurn at h
  split at h
  · rename_i hs; cases h; exact .inl ⟨by simp [hs], rfl⟩
  · rename_i hs; cases h; exact .inl ⟨by simp [hs], rfl⟩
  · rename_i hs; cases h; exact .inl ⟨by simp [hs], rfl⟩
  · rename_i hs
    split at h
    · rename_i hp; exact .inr (.inl ⟨hs, hp, h⟩)
    · rename_i hp
      split at h
      · rename_i seg hseg
        unfold engineSegment at h
        split at h
        · rename_i hw
          refine .inr (.inr (.inl ⟨hs, hp, seg, hseg, hw, ?_⟩))
          cases seg <;> (cases h; rfl)
        · cases h
      · rename_i hseg
        refine .inr (.inr (.inr ⟨hs, hp, hseg, ?_⟩))
        unfold engineEnd at h
        split at h <;> rename_i hr <;> cases h <;> simp [hr]

/-- What a host write can do: nothing while `BUSY`, a command at `CMD`, a field elsewhere (R240, R243, R306). -/
theorem hostWrite_next (offset : Nat) (width : AccessWidth) (v : Word) (s t : State)
    (h : hostWrite offset width v s = .next t) :
    (s.status = .busy ∧ t = s) ∨
      (s.status ≠ .busy ∧ regOf offset width = .cmd ∧ commandWrite v s = .next t) ∨
      (s.status ≠ .busy ∧ regOf offset width ≠ .cmd ∧ t = writeReg (regOf offset width) v s) := by
  unfold hostWrite at h
  split at h
  · cases h; exact .inl ⟨‹_›, rfl⟩
  · split at h
    · exact .inr (.inl ⟨‹_›, ‹_›, h⟩)
    · cases h; exact .inr (.inr ⟨‹_›, ‹_›, rfl⟩)

/-- A read of a register that is no unwritten `FREQ` hands its word over, and does nothing else (R244). -/
theorem hostRead_written (offset : Nat) (width : AccessWidth) (s : State)
    (h : readsUnwritten (regOf offset width) s = false) :
    hostRead offset width s = { s with hostData := .word (readReg (regOf offset width) s) } := by
  simp [hostRead, h]

/-- What one step can do: the engine's turn when the host has no move, else the host's move (R9). -/
theorem step_next (s t : State) (h : step s = .next t) :
    (s.host = [] ∧ engineTurn s = .next t) ∨
      (∃ m rest, s.host = m :: rest ∧ hostTurn m s { s with host := rest } = .next t) := by
  unfold step turn at h
  split at h
  · exact .inl ⟨‹_›, h⟩
  · exact .inr ⟨_, _, ‹_›, h⟩

end Sys2Proof.Machine
end

