-- ==== Sys2Proof/Laws/PerInstr.lean ====
section
/-! SUPPORT. Facts about each instruction as syntax, one lemma per constructor. -/

namespace Sys2Proof.Laws

/-- The number of fields after the header (R97): none for a command, two for `TAG` 0x1, 0x8, 0xA, `1 + K` for 0x2 and
`2 + K` for 0x9. -/
def fieldCount (i : Instr) : Nat :=
  match i with
  | .clear => 0
  | .mapGrey => 0
  | .mapRgb => 0
  | .mapYc => 0
  | .encHdr => 0
  | .encLive => 0
  | .encPcm => 0
  | .hold _ _ => 2
  | .curve fs _ => 1 + fs.length
  | .set _ _ => 2
  | .curveAt fs _ _ => 2 + fs.length
  | .span _ _ => 2

/-- The Time fields among them, two words each (R95). -/
def timeCount (i : Instr) : Nat :=
  match i with
  | .clear => 0
  | .mapGrey => 0
  | .mapRgb => 0
  | .mapYc => 0
  | .encHdr => 0
  | .encLive => 0
  | .encPcm => 0
  | .hold _ _ => 1
  | .curve _ _ => 1
  | .set _ _ => 1
  | .curveAt _ _ _ => 2
  | .span _ _ => 2

/-- An encoding is a header word and the fields R97 counts, a Time field taking two words. -/
def EncodedLength.Statement (i : Instr) : Prop := (encode i).length = 1 + fieldCount i + timeCount i

theorem EncodedLength.clear : EncodedLength.Statement .clear := rfl
theorem EncodedLength.mapGrey : EncodedLength.Statement .mapGrey := rfl
theorem EncodedLength.mapRgb : EncodedLength.Statement .mapRgb := rfl
theorem EncodedLength.mapYc : EncodedLength.Statement .mapYc := rfl
theorem EncodedLength.encHdr : EncodedLength.Statement .encHdr := rfl
theorem EncodedLength.encLive : EncodedLength.Statement .encLive := rfl
theorem EncodedLength.encPcm : EncodedLength.Statement .encPcm := rfl
theorem EncodedLength.hold (f : Freq) (d : Time) : EncodedLength.Statement (.hold f d) := rfl
theorem EncodedLength.curve (fs : List Freq) (d : Time) : EncodedLength.Statement (.curve fs d) := by
  simp [EncodedLength.Statement, encode, fieldCount, timeCount, timeFields, freqFields]
  omega
theorem EncodedLength.set (f : Freq) (t : Time) : EncodedLength.Statement (.set f t) := rfl
theorem EncodedLength.curveAt (fs : List Freq) (t d : Time) : EncodedLength.Statement (.curveAt fs t d) := by
  simp [EncodedLength.Statement, encode, fieldCount, timeCount, timeFields, freqFields]
  omega
theorem EncodedLength.span (start stop : Time) : EncodedLength.Statement (.span start stop) := rfl

end Sys2Proof.Laws
end

