-- ==== Sys2Proof/Laws/Sine.lean ====
section
/-! SUPPORT. What the sine of a configuration can be: the real sine in the exact one, and within [-1, 1] in every one. -/

namespace Sys2Proof.Machine

/-- The principal turn has the sine of the turn it is taken from. -/
theorem principalTurn_sin (q : Rat) :
    Real.sin (2 * Real.pi * (principalTurn q : Rat)) = Real.sin (2 * Real.pi * q) := by
  have hf : Real.sin (2 * Real.pi * ((q - q.floor : Rat) : ℝ)) = Real.sin (2 * Real.pi * q) := by
    push_cast
    rw [show 2 * Real.pi * ((q : ℝ) - (q.floor : ℝ)) = 2 * Real.pi * q - (q.floor : ℤ) * (2 * Real.pi) by ring]
    exact Real.sin_sub_int_mul_two_pi _ _
  rw [← hf]
  simp only [principalTurn]
  split
  · rfl
  · split
    · push_cast
      rw [← Real.sin_pi_sub]
      congr 1
      ring
    · push_cast
      rw [← Real.sin_sub_two_pi (2 * Real.pi * ((q : ℝ) - (q.floor : ℝ)))]
      congr 1
      ring

/-- The amplitude of a principal turn stands for its sine and for nothing else: the five turns whose sine is rational, and
the rest. -/
theorem ampIs_principalSine (q : Rat) (x : ℝ) : ampIs (principalSine q) x ↔ x = Real.sin (2 * Real.pi * q) := by
  unfold principalSine
  split
  · subst_vars; simp [ampIs]
  split
  · subst_vars
    rw [show 2 * Real.pi * ((1 / 12 : Rat) : ℝ) = Real.pi / 6 by push_cast; ring, Real.sin_pi_div_six]
    norm_num [ampIs]
  split
  · subst_vars
    rw [show 2 * Real.pi * ((-1 / 12 : Rat) : ℝ) = -(Real.pi / 6) by push_cast; ring, Real.sin_neg,
      Real.sin_pi_div_six]
    norm_num [ampIs]
  split
  · subst_vars
    rw [show 2 * Real.pi * ((1 / 4 : Rat) : ℝ) = Real.pi / 2 by push_cast; ring, Real.sin_pi_div_two]
    norm_num [ampIs]
  split
  · subst_vars
    rw [show 2 * Real.pi * ((-1 / 4 : Rat) : ℝ) = -(Real.pi / 2) by push_cast; ring, Real.sin_neg,
      Real.sin_pi_div_two]
    norm_num [ampIs]
  · rfl

/-- Every configuration's sine stands for a number within [-1, 1] (R229, R230 a). -/
theorem sinTurn_range (num : Sys2Proof.Num) (q : Rat) (x : ℝ) (h : ampIs (sinTurn num q) x) : -1 ≤ x ∧ x ≤ 1 := by
  cases num with
  | exact =>
    rw [sinTurn, ampIs_principalSine] at h
    exact h ▸ ⟨Real.neg_one_le_sin _, Real.sin_le_one _⟩
  | approx k =>
    cases h
    exact ⟨by exact_mod_cast le_max_left _ _, by exact_mod_cast max_le (by norm_num) (min_le_left _ _)⟩

end Sys2Proof.Machine
end

