-- ==== Sys2Proof/Laws/Step.lean ====
section
/-! SUPPORT. Everything a step can do, said once: proofs about a step cite this and unfold no turn of their own. -/

namespace Sys2Proof.Machine

/-- What one engine turn, host move or command can make of a state, the move already off the host's list. -/
inductive StepTo (s : State) : State → Prop where
  /-- Nothing happens: a dropped access, or an idle block (R301, R306). -/
  | same : StepTo s s
  /-- A register read hands over a word, and may be recorded as U4's (R244, R38). -/
  | readWord (offset : Nat) (width : AccessWidth) : StepTo s (hostRead offset width s)
  /-- A read of an output hands over a record or a sample (R246). -/
  | readOutput (d : HostData) : StepTo s { s with hostData := d }
  /-- A pixel write of a block that is not busy (R245). -/
  | pixels (addr : Nat) (bytes : List Byte) (h : s.status ≠ .busy) : StepTo s (pixWriteBytes s addr bytes)
  /-- A register write of a block that is not busy (R243). -/
  | register (r : Reg) (v : Word) (h : s.status ≠ .busy) : StepTo s (writeReg r v s)
  /-- A command runs, or in a stepwise view starts (R240). -/
  | command (i : Instr) (t : State) (w : Word) (h : s.status ≠ .busy) (hw : decodeCommand w = some i)
      (hi : exec i s = .next t) : StepTo s t
  /-- A reserved command word (R242). -/
  | reserved (h : s.status ≠ .busy) : StepTo s (raiseError .unsupportedFormatOperation (accept s))
  /-- The reset input (R300). -/
  | reset : StepTo s (resetBlock s)
  /-- The checks of a command and the building of its schedule (R277, R202). -/
  | checks (t : State) (h : s.status = .busy) (hp : s.phase = .checks) (hc : checkAndBuild s = .next t) : StepTo s t
  /-- One segment, or one sample of it (R198, R222, R232). -/
  | segment (seg : Segment) (h : s.status = .busy) (hp : s.phase = .project) (hs : s.sched[s.segPtr]? = some seg)
      (hf : (segmentInstr seg).flaw = none) : StepTo s (runSegment seg s)
  /-- The end of the schedule (R198, R200, R226). -/
  | finish (h : s.status = .busy) (hp : s.phase = .project) (hs : s.sched[s.segPtr]? = none) :
      StepTo s (endCommand (if s.running = .pcm then s else emitLive (.span (startTime s) s.tAcc) s))

/-- An engine turn that answers a next state is one of these. -/
theorem engine_stepTo (s t : State) (h : engineTurn s = .next t) : StepTo s t := by
  rcases engineTurn_next s t h with ⟨_, rfl⟩ | ⟨a, b, c⟩ | ⟨a, b, seg, c, d, rfl⟩ | ⟨a, b, c, rfl⟩
  · exact .same
  · exact .checks t a b c
  · exact .segment seg a b c d
  · exact .finish a b c

/-- A step that answers a next state is one of these, on the state with the host's list as the step leaves it. -/
theorem step_stepTo (s t : State) (h : step s = .next t) : ∃ host, StepTo { s with host := host } t := by
  rcases step_next s t h with ⟨_, h⟩ | ⟨m, rest, hm, h⟩
  · exact ⟨s.host, engine_stepTo _ _ h⟩
  cases m with
  | write o w v =>
    refine ⟨rest, ?_⟩
    rcases hostWrite_next o w v _ t h with ⟨_, rfl⟩ | ⟨a, _, b⟩ | ⟨a, _, rfl⟩
    · exact .same
    · unfold commandWrite at b
      split at b
      · rename_i i hi
        exact .command i t v a hi b
      · rw [execReserved, runCommand_next] at b
        rcases b with ⟨c, _⟩ | ⟨_, c⟩
        · exact absurd c a
        · cases c; exact .reserved a
    · exact .register _ _ a
  | read o w =>
    cases h
    exact ⟨rest, .readWord _ _⟩
  | pixels a b =>
    cases h
    refine ⟨rest, ?_⟩
    unfold hostPixels
    split
    · exact .same
    · exact .pixels _ _ ‹_›
  | readLive i => cases h; exact ⟨rest, .readOutput _⟩
  | readPcm i => cases h; exact ⟨rest, .readOutput _⟩
  | yield => exact ⟨rest, engine_stepTo _ _ h⟩
  | await =>
    unfold hostTurn at h
    simp only at h
    split at h
    · exact ⟨s.host, engine_stepTo _ _ h⟩
    · cases h; exact ⟨rest, .same⟩
  | reset => cases h; exact ⟨rest, .reset⟩

end Sys2Proof.Machine
end

