-- ==== Sys2Proof/Tests/Slice0.lean ====
section
/-! SUPPORT. The model's own tests. Every expected value is from spec/: 95_test_vectors.md (its parts A, B, C) or a table
of the section named; none is the model's own output. -/

namespace Sys2Proof.Tests

open Sys2Proof.Machine

-- One proof after another: each `decide +kernel` waits for the kernel, and a thread for every waiting one is too many.
set_option Elab.async false

/-! ## Helpers -/

/-- A projection of the next state, if there is one. -/
def after {α : Type} (o : Host.Outcome State Fault Refusal) (f : State → α) : Option α :=
  match o with
  | .next s => some (f s)
  | .fault _ => none
  | .refused _ => none

/-- The fault, if there is one. -/
def faultOf (o : Host.Outcome State Fault Refusal) : Option Fault :=
  match o with
  | .next _ => none
  | .fault r => some r
  | .refused _ => none

/-- The refusal, if there is one. -/
def refusalOf (o : Host.Outcome State Fault Refusal) : Option Refusal :=
  match o with
  | .next _ => none
  | .fault _ => none
  | .refused r => some r

/-- The default parameters but for a populated memory of `k` bytes. -/
def params (k : Nat) : Params := { Params.default with pixmemBytes := k }

/-- Consecutive pixel bytes from address 0. -/
def bytesAt0 (bs : List Byte) : List Host.Cell := (List.range bs.length).zip bs

/-- Buffer I4 of 95_test_vectors.md B1. -/
def i4 : List Host.Cell :=
  bytesAt0 [0xff, 0, 0, 0xff, 0, 0xff, 0, 0xff, 0, 0, 0xff, 0xff, 0x80, 0x80, 0x80, 0xff]

/-- The state of the B1 command table. -/
def mapState (line hpos pixLen : Nat) : State :=
  { State.reset with
    pix := i4, hPixels := 2, pixLen := BitVec.ofNat 32 pixLen, line := BitVec.ofNat 16 line,
    hpos := BitVec.ofNat 16 hpos }

/-- Program P1 before its `CMD` write. -/
def p1 : State := { State.reset with visCode := 44 }

/-- Program P2 before its `CMD` write. -/
def p2 : State :=
  { State.reset with
    pix := bytesAt0 [0xff, 0, 0, 0xff, 0, 0x80, 0xff, 0xff], pixLen := 8, family := 1, numLines := 1, hPixels := 2,
    tBlank := 1000000, tScan := 4000000, tSync := 5000000, visCode := 44, t0Lo := 1000000000 }

/-- Program P3 before its `CMD` write. -/
def p3 : State :=
  { State.reset with
    pix := bytesAt0 [0xff, 0, 0, 0xff, 0, 0x80, 0xff, 0xff], pixLen := 8, family := 4, numLines := 1, hPixels := 2,
    tBlank := 500000, tScan := 7000000, tSync := 5500000, visCode := 55, sampleRate := 1000 }

/-- Program P4 before its `CMD` write. -/
def p4 : State :=
  { State.reset with
    pix := bytesAt0 [0xff, 0, 0, 0xff, 0, 0, 0xff, 0xff], pixLen := 8, family := 3, numLines := 2, hPixels := 1,
    tBlank := 2080000, tScan := 10000000, tSync := 20000000, visCode := 95 }

/-- Program P5 before its `CMD` write. -/
def p5 : State :=
  { State.reset with
    pix := bytesAt0 [0xff, 0, 0, 0xff, 0, 0xff, 0, 0xff], pixLen := 8, family := 2, numLines := 2, hPixels := 1,
    tBlank := 1500000, tScan := 3000000, tSync := 9000000, visCode := 60 }

/-- A row of 95_test_vectors.md B7 (the bytes of the image written). -/
def b7 (family numLines hPixels tScan rate pixLen : Nat) : State :=
  { State.reset with
    pix := bytesAt0 (List.replicate 24 0), family := BitVec.ofNat 3 family, numLines := BitVec.ofNat 16 numLines,
    hPixels := BitVec.ofNat 16 hPixels, tScan := BitVec.ofNat 32 tScan, sampleRate := BitVec.ofNat 32 rate,
    pixLen := BitVec.ofNat 32 pixLen }

/-- The error code after an instruction. -/
def codeAfter (i : Instr) (s : State) : Option ErrCode := after (exec i s) (·.err)

/-! ## Well-formedness: one ill-formed term for each check (R95, R96, R98) -/

theorem test_flaw_empty_curve : (Instr.curve [] 5).flaw = some .emptyCurve := by decide
theorem test_flaw_empty_curve_at : (Instr.curveAt [] 5 5).flaw = some .emptyCurve := by decide
theorem test_flaw_long_curve : (Instr.curve (List.replicate 65536 1500) 5).flaw = some .longCurve := by
  decide +kernel
theorem test_flaw_wide_hold : (Instr.hold 1500 (2 ^ 64)).flaw = some .wideTime := by decide
theorem test_flaw_wide_curve : (Instr.curve [1500] (2 ^ 64)).flaw = some .wideTime := by decide
theorem test_flaw_wide_set : (Instr.set 1500 (2 ^ 64)).flaw = some .wideTime := by decide
theorem test_flaw_wide_curve_at : (Instr.curveAt [1500] 0 (2 ^ 64)).flaw = some .wideTime := by decide
theorem test_flaw_wide_span : (Instr.span (2 ^ 64) 0).flaw = some .wideTime := by decide
theorem test_no_flaw : (Instr.curve [1500] (2 ^ 64 - 1)).WellFormed := by decide

/-! ## Encodings written out from 30_encoding.md R92, R95, R96 and 95_test_vectors.md P2 -/

theorem test_decode_clear : decode [.word 0x00000000] = .ok (.clear, []) := by rfl
theorem test_decode_map_grey : decode [.word 0x00000001] = .ok (.mapGrey, []) := by rfl
theorem test_decode_map_rgb : decode [.word 0x00000002] = .ok (.mapRgb, []) := by rfl
theorem test_decode_map_yc : decode [.word 0x00000003] = .ok (.mapYc, []) := by rfl
theorem test_decode_enc_hdr : decode [.word 0x00000004] = .ok (.encHdr, []) := by rfl
theorem test_decode_enc_live : decode [.word 0x00000005] = .ok (.encLive, []) := by rfl
theorem test_decode_enc_pcm : decode [.word 0x00000006] = .ok (.encPcm, []) := by rfl
/-- `HOLD 1200, 5000000`: tag 0x1, then the frequency, then 5000000 = 0x004C4B40 low word first. -/
theorem test_decode_hold :
    decode [.word 0x10000000, .freq 1200, .word 0x004C4B40, .word 0] = .ok (.hold 1200 5000000, []) := by rfl
/-- A `CURVE` of two frequencies lasting 2^32 + 1 ns: tag 0x2, K = 2, the duration, the frequencies. -/
theorem test_decode_curve :
    decode [.word 0x20000002, .word 1, .word 1, .freq 1500, .freq 1900]
      = .ok (.curve [1500, 1900] 4294967297, []) := by rfl
/-- P2, word-level form of `SET 1200 @ 2710000000`. -/
theorem test_decode_set :
    decode [.word 0x80000000, .freq 1200, .word 0xA1875180, .word 0] = .ok (.set 1200 2710000000, []) := by rfl
/-- P2, word-level form of `CURVE_AT [1500, 1901.5686272] @ 2716000000 for 4000000`. -/
theorem test_decode_curve_at :
    decode [.word 0x90000002, .word 0xA1E2DF00, .word 0, .word 0x003D0900, .word 0, .freq 1500,
        .freq (148560049 / 78125)]
      = .ok (.curveAt [1500, 148560049 / 78125] 2716000000 4000000, []) := by rfl
/-- P2, word-level form of `SPAN 1000000000, 2731000000`. -/
theorem test_decode_span :
    decode [.word 0xA0000000, .word 0x3B9ACA00, .word 0, .word 0xA2C7C0C0, .word 0]
      = .ok (.span 1000000000 2731000000, []) := by rfl
/-- P2: the encoder writes the word-level forms of the spec. -/
theorem test_encode_p2 :
    encode (.set 1200 2710000000) = [.word 0x80000000, .freq 1200, .word 0xA1875180, .word 0] ∧
    encode (.span 1000000000 2731000000)
      = [.word 0xA0000000, .word 0x3B9ACA00, .word 0, .word 0xA2C7C0C0, .word 0] := by
  constructor <;> rfl

/-- The decoder leaves the rest of the stream (R97). -/
theorem test_decode_rest :
    decode [.word 0x10000000, .freq 1900, .word 1, .word 0, .word 4] = .ok (.hold 1900 1, [.word 4]) := by rfl

/-! ## Reserved encodings (R98, R100, U1, U5) -/

theorem test_reserved_command : decode [.word 0x00000007] = .error .reservedCommand := by rfl
theorem test_reserved_tag : decode [.word 0x30000000] = .error .reservedTag := by rfl
theorem test_reserved_tag_b : decode [.word 0xB0000000, .freq 1, .word 0, .word 0] = .error .reservedTag := by rfl
theorem test_reserved_bits : decode [.word 0x10010000, .freq 1, .word 0, .word 0] = .error .reservedBits := by rfl
theorem test_stray_count : decode [.word 0x80000001, .freq 1, .word 0, .word 0] = .error .strayCount := by rfl
theorem test_truncated : decode [.word 0x20000002, .word 0, .word 0, .freq 1] = .error .truncated := by rfl
theorem test_wrong_field : decode [.word 0x10000000, .word 1200, .word 0, .word 0] = .error .wrongField := by rfl
theorem test_no_header : decode [] = .error .noHeader := by rfl

/-- No two rows of the opcode table share a word: they differ in a bit both masks fix. -/
theorem test_rows_disjoint :
    opcodeRows.Pairwise fun a b => (a.2.1 ^^^ b.2.1) &&& a.2.2 &&& b.2.2 ≠ 0 := by decide

/-- Each row's word is decoded as the row's instruction. -/
theorem test_table_words :
    (opcodeRows.map fun r => decodeTableWord 32 r.2.1.toNat) =
      [some .clear, some .mapGrey, some .mapRgb, some .mapYc, some .encHdr, some .encLive, some .encPcm,
       some (.hold 0 0), some (.curve [] 0), some (.set 0 0), some (.curveAt [] 0 0), some (.span 0 0)] := by rfl

/-! ## Placing a table word and running it as the first step after reset (log entry 17) -/

/-- R302: `CLEAR` and `ENC_HDR` succeed, the others report their error. -/
theorem test_first_commands :
    (List.range 8).map (fun w => after (step (State.reset.withFetchWord 32 w)) fun s => (s.status, s.err)) =
      [some (.idle, .none), some (.error, .inputSizeMismatch), some (.error, .inputSizeMismatch),
       some (.error, .inputSizeMismatch), some (.done, .none), some (.error, .unsupportedFormatOperation),
       some (.error, .unsupportedFormatOperation), some (.error, .unsupportedFormatOperation)] := by
  decide +kernel

/-- A placed segment is run, and `SEG_PTR` moves past it (R39). -/
theorem test_first_segments :
    [0x10000000, 0x20000003].map (fun w => after (step (State.reset.withFetchWord 32 w)) (·.segPtr))
      = [some 1, some 1] := by decide +kernel

/-- A placed record is emitted (R198, R200). -/
theorem test_first_records :
    [0x80000000, 0x90000002, 0xA0000000].map
        (fun w => after (step (State.reset.withFetchWord 32 w)) (·.outLive))
      = [some [.set 0 0], some [.curveAt [0, 0] 0 0], some [.span 0 0]] := by decide +kernel

/-- A `CURVE` with `K` = 0 is never run (R98). -/
theorem test_empty_curve_refused :
    refusalOf (step (State.reset.withFetchWord 32 0x20000000)) = some .illFormedSegment := by decide +kernel

/-- After reset, with no host move, nothing happens (R301). -/
theorem test_reset_idles : step State.reset = .next State.reset := rfl

/-! ## ColorEncoder (B1) -/

theorem test_grey_128 : grey 128 128 128 = 148560049 / 78125 := by decide +kernel
theorem test_grey_red : grey 255 0 0 = 17391999998505 / 10000000000 := by decide +kernel
theorem test_rgb_255 : hz 255 = 22999999995 / 10000000 := by decide +kernel
/-- B1, row (255,0,0). -/
theorem test_yc_red :
    hz (lumaValue 255 0 0) = 1724241631671613686 / 1000000000000000 ∧
    hz (redChromaValue 255 0 0) = 2252918014180406633 / 1000000000000000 ∧
    hz (blueChromaValue 255 0 0) = 1782998091274106585 / 1000000000000000 := by decide +kernel
/-- B1, row (10,20,30). -/
theorem test_yc_mixed :
    lumaValue 10 20 30 = 2158665864 / 100000000 ∧ redChromaValue 10 20 30 = 12289392056 / 100000000 ∧
    blueChromaValue 10 20 30 = 13387399904 / 100000000 := by decide +kernel

/-- B1, command table: (0,0) `MAP_RGB`. -/
theorem test_map_rgb :
    after (exec .mapRgb (mapState 0 0 16)) (fun s => (s.status, s.freq0.value, s.freq1.value, s.freq2.value))
      = some (.done, 22999999995 / 10000000, 1500, 1500) := by decide +kernel
/-- B1, command table: (0,1) `MAP_YC`. -/
theorem test_map_yc :
    after (exec .mapYc (mapState 0 1 16)) (fun s => (s.freq0.value, s.freq1.value, s.freq2.value))
      = some (1922100842747951679 / 1000000000000000, 1607356208183882762 / 1000000000000000,
          1668789776145486782 / 1000000000000000) := by decide +kernel
/-- B1, command table: (1,0) `MAP_GREY`; `FREQ1` is not written. -/
theorem test_map_grey :
    after (exec .mapGrey (mapState 1 0 16)) (fun s => (s.freq0.value, s.freq0.written, s.freq1.written))
      = some (1591199999943 / 1000000000, true, false) := by decide +kernel
/-- B1: (0,3) is the pixel of (1,1), the last legal one; with `PIX_LEN` = 15 its alpha byte is out of bounds. -/
theorem test_map_bounds :
    after (exec .mapGrey (mapState 0 3 16)) (fun s => s.freq0.value) = some (148560049 / 78125) ∧
    codeAfter .mapGrey (mapState 1 1 15) = some .inputSizeMismatch ∧
    codeAfter .mapRgb (mapState 1 2 16) = some .inputSizeMismatch ∧
    codeAfter .mapYc (mapState 65535 65535 16) = some .inputSizeMismatch := by decide +kernel
/-- U3: a pixel byte nothing has written. -/
theorem test_map_unwritten :
    faultOf (exec .mapRgb { mapState 0 0 16 with pix := [] }) = some .pixUnwritten := by decide +kernel

/-! ## HeaderProtocol (B2, P1) -/

/-- B2, code 44: the tones of segments 12 to 19. -/
theorem test_vis_44 :
    ((header 44).drop 12).take 8 =
      [.hold 1300 30000000, .hold 1300 30000000, .hold 1100 30000000, .hold 1100 30000000, .hold 1300 30000000,
       .hold 1100 30000000, .hold 1300 30000000, .hold 1100 30000000] := by decide +kernel
/-- S1: the parity samples. -/
theorem test_parity :
    ([0, 1, 44, 55, 60, 64, 95, 127].map fun v => visParity v)
      = [false, true, true, true, false, true, false, true] := by decide
/-- P1: the 22 records. -/
theorem test_p1 :
    after (exec .encHdr p1) (fun s => (s.status, s.segCount, s.outLive)) = some (.done, 21,
      [.set 1900 0, .set 1500 100000000, .set 1900 200000000, .set 1500 300000000, .set 2300 400000000,
       .set 1500 500000000, .set 2300 600000000, .set 1500 700000000, .set 1900 800000000, .set 1200 1100000000,
       .set 1900 1110000000, .set 1200 1410000000, .set 1300 1440000000, .set 1300 1470000000,
       .set 1100 1500000000, .set 1100 1530000000, .set 1300 1560000000, .set 1100 1590000000,
       .set 1300 1620000000, .set 1100 1650000000, .set 1200 1680000000, .span 0 1710000000]) := by decide +kernel
/-- P1 with `T0` = 5 s: the last record. -/
theorem test_p1_t0 :
    after (exec .encHdr { p1 with t0Lo := 0x2A05F200, t0Hi := 1 }) (fun s => s.outLive.getLast?)
      = some (some (.span 5000000000 6710000000)) := by decide +kernel

/-! ## The encode commands (P2 to P6, B4, B7) -/

/-- P2: the records after the header. -/
theorem test_p2 :
    after (exec .encLive p2) (fun s => (s.status, s.segCount, s.outLive.drop 21)) = some (.done, 29,
      [.set 1200 2710000000, .set 1500 2715000000,
       .curveAt [1500, 148560049 / 78125] 2716000000 4000000, .set 1500 2720000000,
       .curveAt [1500, 22999999995 / 10000000] 2721000000 4000000, .set 1500 2725000000,
       .curveAt [22999999995 / 10000000, 1500] 2726000000 4000000, .set 1500 2730000000,
       .span 1000000000 2731000000]) := by decide +kernel
/-- P3: the counters, and the last rendered index. -/
theorem test_p3_counts :
    after (exec .encPcm p3) (fun s => (s.status, s.segCount, s.sampCount, s.sampEmit))
      = some (.done, 26, 1737, 1733) := by decide +kernel
/-- P3's registers under `ENC_LIVE`: the records after the header. -/
theorem test_p3_live :
    after (exec .encLive p3) (fun s => s.outLive.drop 21) = some
      [.set 1200 1710000000, .set 1500 1715500000,
       .curveAt [22999999995 / 10000000, 1500] 1716000000 7000000,
       .curveAt [1500, 148560049 / 78125] 1723000000 7000000,
       .curveAt [1500, 22999999995 / 10000000] 1730000000 7000000, .span 0 1737000000] := by decide +kernel
/-- P3: the argument of the sine at samples 1717 and 1724, in turns. -/
theorem test_p3_turns :
    turns (synthOf p3) (hz 255) 1717 = 7898199998283 / 2000000000 ∧
    turns (synthOf p3) (hz 128) 1724 = 64029381119 / 19531250 := by decide +kernel
/-- P3: rows of the sample table. The amplitude of a fractional part `r` of the table is the sine of `r`, of `1/2 - r`
above a quarter, of `r - 1` above three; -1/10 and -1/5 are the rows 9/10, 4/5, 7/10 and 3/5. -/
theorem test_p3_samples :
    ([(1900, 0), (1900, 1), (1900, 2), (1900, 3), (1900, 4), (1900, 5), (1900, 99), (1200, 1711), (hz 255, 1715),
      (1500, 1718), (hz 128, 1724)].map fun p => sample (synthOf p3) p.1 p.2)
      = [.value 0, .sine (-1 / 10), .sine (-1 / 5), .sine (-1 / 5), .sine (-1 / 10), .value 0, .sine (1 / 10),
         .sine (1 / 5), .sine (343 / 400000000), .value 0, .sine (1911003 / 9765625)] := by decide +kernel
/-- R230 (d), and the exact sines of 1/12 and 11/12 of a turn, 1/2 and -1/2. -/
theorem test_sine_values :
    [0, 1 / 4, 1 / 2, 3 / 4, 1, -1 / 4, 1 / 12, 11 / 12].map (sinTurn .exact)
      = [.value 0, .value 1, .value 0, .value (-1), .value 0, .value (-1), .value (1 / 2), .value (-1 / 2)] := by
  decide +kernel
/-- P4: the records after the header. -/
theorem test_p4 :
    after (exec .encLive p4) (fun s => (s.segCount, s.outLive.drop 21)) = some (27,
      [.set 1200 1710000000, .set 1500 1730000000,
       .curveAt [1724241631671613686 / 1000000000000000] 1732080000 10000000,
       .curveAt [2048674836708058619 / 1000000000000000] 1742080000 10000000,
       .curveAt [2017958052727256609 / 1000000000000000] 1752080000 10000000,
       .curveAt [1597143516551050008 / 1000000000000000] 1762080000 10000000,
       .span 0 1772080000]) := by decide +kernel
/-- P5: the records after the header. -/
theorem test_p5 :
    after (exec .encLive p5) (fun s => (s.segCount, s.outLive.drop 21)) = some (36,
      [.set 1200 1710000000, .set 1500 1719000000, .curveAt [1500] 1720500000 3000000, .set 1500 1723500000,
       .curveAt [1500] 1725000000 3000000, .set 1200 1728000000, .set 1500 1737000000,
       .curveAt [22999999995 / 10000000] 1738500000 3000000, .set 1500 1741500000,
       .curveAt [22999999995 / 10000000] 1743000000 3000000, .set 1500 1746000000,
       .curveAt [1500] 1747500000 3000000, .set 1200 1750500000, .set 1500 1759500000,
       .curveAt [1500] 1761000000 3000000, .span 0 1764000000]) := by decide +kernel
/-- P6, step 7: two zero-length holds and four curves of ten samples. -/
theorem test_p6_counts :
    after (exec .encPcm { p4 with tBlank := 0, tSync := 0, visCode := 0, sampleRate := 1000 })
      (fun s => (s.segCount, s.sampCount, s.sampEmit)) = some (27, 1750, 1750) := by decide +kernel
/-- B7: the rows of the error table under `ENC_PCM`. -/
theorem test_b7_pcm :
    ([b7 0 0 0 0 0 0, b7 5 2 2 1 1 16, b7 1 0 2 1 1 16, b7 1 2 0 1 1 16, b7 1 2 2 0 1 16, b7 3 3 2 1 1 24,
      b7 1 3 2 1 1 24, b7 3 3 2 1 0 0, b7 1 2 2 1 0 0, b7 1 2 2 1 1 15, b7 1 2 2 1 1 16, b7 1 2 2 1 1 17,
      b7 1 65535 65535 1 1 0xFFFFFFFF, b7 1 2 2 1 0 16].map fun s => (codeAfter .encPcm s).map errWord) =
    [some 1, some 1, some 3, some 3, some 3, some 3, some 0, some 3, some 3, some 2, some 0, some 0, some 2,
     some 3] := by decide +kernel
/-- B7: the rows in which `ENC_LIVE` differs. -/
theorem test_b7_live :
    ([b7 1 2 2 1 0 0, b7 1 2 2 1 0 16].map fun s => (codeAfter .encLive s).map errWord)
      = [some 2, some 0] := by decide +kernel
/-- U3: an encode command that meets a byte nothing has written. -/
theorem test_encode_unwritten :
    faultOf (exec .encLive { p2 with pix := p2.pix.take 5 }) = some .pixUnwritten := by decide +kernel

/-! ## Segments and records as instructions (R222, R223, R232; B5) -/

/-- B5: sample counts of a hold of 10 ms and of curves. -/
theorem test_sample_counts :
    (segSamples 44100 (.hold 1200 10000000), segSamples 99 (.hold 1200 10000000),
     segSamples 44100 (.curve (List.replicate 320 1500) 146432000),
     segSamples 2000 (.curve (List.replicate 320 1500) 146432000), segSamples 1000 (.curve [1, 2] 7000000))
    = (441, 0, 20, 0, 3) := by decide +kernel
/-- A buffer of zeros. -/
def zeros (k : Nat) : List Amp := List.replicate k (.value 0)
/-- R222, R224: a hold of two samples at index 1: 6.1 and 12.2 turns. -/
theorem test_hold_pcm :
    after (exec (.hold 1220 10000000)
        { State.reset with running := .pcm, sampleRate := 200, outPcm := zeros 4, n := 1 })
      (fun s => (s.outPcm, s.n, s.segPtr))
      = some ([.value 0, .sine (1 / 10), .sine (1 / 5), .value 0], 3, 1) := by decide +kernel
/-- R223, R224: two sub-holds of one sample each, no interpolation: 0 and 9.6 turns. -/
theorem test_curve_pcm :
    after (exec (.curve [1520, 1920] 10000000)
        { State.reset with running := .pcm, sampleRate := 200, outPcm := zeros 3, n := 0 })
      (fun s => (s.outPcm, s.n))
      = some ([.value 0, .sine (-1 / 10), .value 0], 2) := by decide +kernel
/-- R232: one sample a step; `J` advances, then `SUB`, then `SEG_PTR`. -/
theorem test_sample_steps :
    [(0, 0), (0, 1), (1, 0), (1, 1)].map (fun p => after (exec (.curve [1500, 1900] 20000000)
        { State.reset with
          running := .pcm, view := .sample, sampleRate := 200, outPcm := zeros 4, sub := p.1, j := p.2 })
      fun s => (s.segPtr, s.sub, s.j, s.n))
      = [some (0, 0, 1, 1), some (0, 1, 0, 1), some (0, 1, 1, 1), some (1, 0, 0, 1)] := by decide +kernel
/-- R232: a segment with no sample is skipped without writing. -/
theorem test_sample_skip :
    after (exec (.hold 1200 4000000)
        { State.reset with running := .pcm, view := .sample, sampleRate := 200, outPcm := zeros 1 })
      (fun s => (s.segPtr, s.outPcm, s.n)) = some (1, zeros 1, 0) := by decide +kernel
/-- R198: a hold and a curve in a live command. -/
theorem test_hold_live :
    after (exec (.hold 1200 5000000) { State.reset with running := .live, tAcc := 2710000000 })
      (fun s => (s.outLive, s.tAcc)) = some ([.set 1200 2710000000], 2715000000) := by decide +kernel
theorem test_curve_live :
    after (exec (.curve [1500, 1900] 4000000) { State.reset with running := .live, tAcc := 2716000000 })
      (fun s => (s.outLive, s.tAcc)) = some ([.curveAt [1500, 1900] 2716000000 4000000], 2720000000) := by
  decide +kernel
/-- R8: a record is appended after the ones before it. -/
theorem test_records_append :
    after (exec (.set 1200 7) { State.reset with outLive := [.set 1500 5] }) (·.outLive)
      = some [.set 1500 5, .set 1200 7] := by decide +kernel

/-! ## The stepwise views (R9, R280) -/

/-- A stepwise `ENC_LIVE` goes `BUSY` first, then `ERROR` with no record (R280). -/
theorem test_stepwise_error :
    after (exec .encLive { State.reset with view := .segment }) (fun s => (s.status, s.err)) = some (.busy, .none) ∧
    after (step { State.reset with view := .segment, status := .busy, running := .live })
      (fun s => (s.status, s.err, s.outLive)) = some (.error, .unsupportedFormatOperation, []) := by decide +kernel

/-! ## System operations and the host port (B6) -/

/-- B6: `CLEAR` after an error. -/
theorem test_clear :
    after (exec .clear { State.reset with status := .error, err := .inputSizeMismatch, visCode := 44 })
      (fun s => (s.status, s.err, s.visCode)) = some (.idle, .none, 44) := by decide +kernel
/-- B6: a reserved word, and a command word with a stray high bit. -/
theorem test_reserved_words :
    [7, 0x80000005].map (fun w => after (commandWrite w State.reset) fun s => (s.status, errWord s.err))
      = [some (.error, 1), some (.error, 1)] := by decide +kernel
/-- B6: register fields, the hard-wired bit of `T0_HI`, and read-only registers. -/
theorem test_register_writes :
    after (step { State.reset with host := [.write 0x0C .word 0xFFFFFFFF] }) (·.family) = some 7 ∧
    after (step { State.reset with host := [.write 0x10 .word 0x00012345] }) (·.numLines) = some 0x2345 ∧
    after (step { State.reset with host := [.write 0x30 .word 0xFFFFFFFF] }) (·.t0Hi) = some 0x7FFFFFFF ∧
    after (step { State.reset with host := [.write 0x24 .word 0xFFFFFFAC] }) (·.visCode) = some 44 ∧
    after (step { State.reset with host := [.write 0x04 .word 3] }) (·.status) = some .idle := by decide +kernel
/-- B6: `PIX_LEN` is held to `PIXMEM_BYTES` = 1024. -/
theorem test_pix_len_clamp :
    after (step { State.reset with params := params 1024, host := [.write 0x34 .word 5000] }) (·.pixLen)
      = some 1024 := by decide +kernel
/-- B6: reads after reset, and of a reserved offset; an unaligned or narrow access reads 0. -/
theorem test_register_reads :
    [(0x04, AccessWidth.word), (0x08, .word), (0x00, .word), (0x5C, .word), (0x90, .word), (0x25, .word),
      (0x24, .half)].map (fun p => after (step { p1 with host := [.read p.1 p.2] }) (·.hostData))
      = List.replicate 7 (some (.word 0)) := by decide +kernel
/-- B6: `EST_DUR` = 4 * (3 + 2 + 3). -/
theorem test_est_dur :
    after (step { State.reset with tSync := 1, tBlank := 2, tScan := 3, numLines := 4, host := [.read 0x54 .word] })
      (·.hostData) = some (.word 32) := by decide +kernel
/-- U4, R38: a read of a FREQ register before any `MAP_*` is recorded, one after is not, and the run goes on. -/
theorem test_freq_unwritten :
    after (step { State.reset with host := [.read 0x60 .word] }) (·.readFault) = some true ∧
    after (step { State.reset with freq0 := ⟨1500, true⟩, host := [.read 0x6C .word] }) (·.readFault) = some false ∧
    after (step { State.reset with freq0 := ⟨1500, true⟩, host := [.read 0x70 .word] }) (·.readFault) = some true := by
  decide +kernel
/-- R306: every write is dropped while `BUSY`. -/
theorem test_busy_writes :
    [HostMove.write 0x0C .word 1, .write 0x00 .word 0, .pixels 0 [1]].map
      (fun m => after (step { State.reset with status := .busy, host := [m] }) fun s => (s.status, s.family, s.pix))
      = List.replicate 3 (some (.busy, 0, [])) := by decide +kernel
/-- R245: a pixel write is kept in address order, and dropped at `PIXMEM_BYTES`. -/
theorem test_pixel_writes :
    after (step { State.reset with pix := [(0, 9), (7, 7)], params := params 8, host := [.pixels 6 [1, 2, 3]] }) (·.pix)
      = some [(0, 9), (6, 1), (7, 2)] := by decide +kernel
/-- R246: reading a record and a sample. -/
theorem test_output_reads :
    after (step { State.reset with outLive := [.set 1200 5], host := [.readLive 0] }) (·.hostData)
      = some (.record (.set 1200 5)) ∧
    after (step { State.reset with outPcm := zeros 1, host := [.readPcm 0] }) (·.hostData) = some (.sample (.value 0)) ∧
    after (step { State.reset with host := [.readPcm 0] }) (·.hostData) = some .nothing ∧
    after (step { State.reset with status := .busy, n := 1, outPcm := [.value 1, .value 0], host := [.readPcm 1] }) (·.hostData)
      = some .nothing := by decide +kernel
/-- R300: reset during a command discards it. -/
theorem test_reset_move :
    after (step { p2 with status := .busy, outLive := [.set 1 1], host := [.reset] })
      (fun s => (s.status, s.family, s.outLive, s.pix)) = some (.idle, 0, [], []) := by decide +kernel

/-! ## The container (B8, S5), outside the block -/

/-- B8: quantization. -/
theorem test_quantize :
    ([-1, -1 / 2, -1 / 65535, 0, 1 / 65535, 1 / 2, 1, 2, -3].map fun r => quantize (.value r))
      = [0, 16384, 32767, 32768, 32768, 49151, 65535, 65535, 0] := by decide +kernel
/-- B8: the 52 bytes of `Wav(1, 1000, [0, 1, -1, 1/2])`. -/
theorem test_wav :
    wav 1000 4 [[.value 0, .value 1, .value (-1), .value (1 / 2)]] =
      [0x52, 0x49, 0x46, 0x46, 0x2C, 0, 0, 0, 0x57, 0x41, 0x56, 0x45, 0x66, 0x6D, 0x74, 0x20, 0x10, 0, 0, 0, 1, 0, 1, 0,
       0xE8, 3, 0, 0, 0xD0, 7, 0, 0, 2, 0, 0x10, 0, 0x64, 0x61, 0x74, 0x61, 8, 0, 0, 0, 0, 0x80, 0xFF, 0xFF, 0, 0,
       0xFF, 0xBF] := by decide +kernel
/-- R264: the header of 100 samples at 44100 Hz. -/
theorem test_wav_header :
    wavHeader 1 44100 100 =
      [0x52, 0x49, 0x46, 0x46, 0xEC, 0, 0, 0, 0x57, 0x41, 0x56, 0x45, 0x66, 0x6D, 0x74, 0x20, 0x10, 0, 0, 0, 1, 0, 1, 0,
       0x44, 0xAC, 0, 0, 0x88, 0x58, 1, 0, 2, 0, 0x10, 0, 0x64, 0x61, 0x74, 0x61, 0xC8, 0, 0, 0] := by decide +kernel

/-! ## Witnesses: for each statement with hypotheses, a state and operands that meet all of them, at a boundary value of
each clause -/

open Sys2Proof.Claims

/-- A live command in the middle of its schedule. -/
def midLive : State :=
  { p2 with
    view := .segment, status := .busy, running := .live, phase := .project, sched := [.hold 1200 5, .curve [1500] 7],
    segPtr := 1, tAcc := 1000000005, outLive := [.set 1200 1000000000] }

/-- A live command at the end of its schedule. -/
def endLive : State := { midLive with segPtr := 2, tAcc := 1000000012 }

/-- An `ENC_PCM` in the middle of a hold of four samples, one sample a step. -/
def midPcm : State :=
  { State.reset with
    view := .sample, status := .busy, running := .pcm, phase := .project, sched := [.hold 1200 20000000],
    sampleRate := 200, outPcm := zeros 4, n := 3, j := 3 }

/-- A `CMD` write of `w` is the host's next move. -/
def writing (w : Word) : State := { State.reset with host := [.write 0x00 .word w] }

theorem witness_EncodeThenDecode :
    (Instr.curveAt (List.replicate 65535 0) (2 ^ 64 - 1) 0).WellFormed ∧ (Instr.curve [0] 0).WellFormed ∧
    (Instr.span 0 (2 ^ 64 - 1)).WellFormed ∧ Instr.encPcm.WellFormed := by decide +kernel
theorem witness_DecodeThenEncode :
    decode [.word 0x1FFFFFFF] = .error .reservedBits ∧
    decode [.word 0x10000000, .freq 0, .word 0xFFFFFFFF, .word 0xFFFFFFFF, .word 7]
      = .ok (.hold 0 (2 ^ 64 - 1), [.word 7]) := ⟨rfl, rfl⟩
theorem witness_StepRunsTheCommandWritten :
    (writing 6).status ≠ .busy ∧ (writing 6).host = [.write 0x00 .word 6] ∧ decode [.word 6] = .ok (.encPcm, []) :=
  ⟨by decide, rfl, rfl⟩
theorem witness_StepRunsTheSegmentAtSegPtr :
    midLive.status = .busy ∧ midLive.phase = .project ∧ midLive.sched[midLive.segPtr]? = some (.curve [1500] 7) ∧
    (segmentInstr (.curve [1500] 7)).WellFormed ∧ midLive.host = [] ∧
    ({ midLive with host := [.yield] } : State).host = [.yield] := by decide
theorem witness_LiveScheduleEndsWithSpan :
    endLive.status = .busy ∧ endLive.phase = .project ∧ endLive.running ≠ .pcm ∧
    endLive.sched.length ≤ endLive.segPtr ∧ endLive.host = [] := by decide
theorem witness_ReservedCommandRaisesUnsupported :
    (writing 7).status ≠ .busy ∧ (writing 7).host = [.write 0x00 .word 7] ∧ 7 ≤ (7 : Word).toNat ∧
    7 ≤ (0xFFFFFFFF : Word).toNat := by decide
theorem witness_ClearLeavesIdle : ({ p2 with status := .error } : State).status ≠ .busy := by decide
/-- The last pixel that fits: `base + 3 = 15 < 16`; for `MapGreyWritesFreq0`, `MapRgbWritesThreeChannels` and
`MapYcWritesLumaAndChroma`. -/
theorem witness_MapWrites :
    (mapState 1 1 16).status ≠ .busy ∧ mapBase (mapState 1 1 16) + 3 < (mapState 1 1 16).pixLen.toNat ∧
    coloursAt (mapState 1 1 16) (mapBase (mapState 1 1 16)) 0x80 0x80 0x80 := by decide
/-- One byte short: `PIX_LEN` = 15; for the error clauses of the same three. -/
theorem witness_MapOutOfBounds :
    (mapState 1 1 15).status ≠ .busy ∧ (mapState 1 1 15).pixLen.toNat ≤ mapBase (mapState 1 1 15) + 3 := by decide
/-- A `MAP_*`: the first and the last of the three colour bytes, unwritten; `ENC_LIVE` and `ENC_PCM`: the last colour byte
of the last pixel. -/
theorem witness_UnwrittenPixelFaults :
    (let s : State := { p3 with pix := p3.pix.take 6 }
     ChecksPass .live .wrasse s ∧ ChecksPass .pcm .wrasse s ∧ 0 < s.numLines.toNat ∧ 1 < s.hPixels.toNat ∧
       memRead s.pix (colourAddr s 0 1 2) = none ∧ s.status ≠ .busy ∧ s.view = .atomic) ∧
    (let s : State := { p3 with pix := [], status := .busy, running := .pcm, view := .segment }
     ChecksPass .pcm .wrasse s ∧ memRead s.pix (colourAddr s 0 0 0) = none ∧ s.phase = .checks ∧ s.host = []) ∧
    mapBase (mapState 1 1 16) + 3 < (mapState 1 1 16).pixLen.toNat ∧
    memRead ({ mapState 1 1 16 with pix := i4.take 12 } : State).pix (mapBase (mapState 1 1 16) + 0) = none ∧
    memRead ({ mapState 1 1 16 with pix := i4.take 14 } : State).pix (mapBase (mapState 1 1 16) + 2) = none := by decide
theorem witness_ColourRangesAndNeutralGrey : (0 : Nat) ≤ 255 ∧ (255 : Nat) ≤ 255 := by decide
theorem witness_EncHdrEmitsTheHeader : p1.status ≠ .busy ∧ p1.view = .atomic := by decide
theorem witness_EncLiveSucceeds :
    p2.status ≠ .busy ∧ p2.view = .atomic ∧ Encodable .live .martin p2 ∧ Encodable .live .scottie p5 ∧
    Encodable .live .pd p4 ∧ Encodable .live .wrasse p3 :=
  ⟨by decide, rfl, by decide, by decide, by decide, by decide⟩
/-- `SAMPLE_RATE` = 1 is the least legal rate; for `EncPcmSucceeds` and `BothProjectionsShareOneSchedule`. -/
theorem witness_EncPcmSucceeds :
    p3.status ≠ .busy ∧ p3.view = .atomic ∧ Encodable .pcm .wrasse p3 ∧
    Encodable .pcm .pd { p4 with sampleRate := 1 } := ⟨by decide, rfl, by decide, by decide⟩
/-- For `PcmIsTheSineOfTheAbsoluteIndex`. -/
theorem witness_PcmIsTheSineOfTheAbsoluteIndex :
    p3.status ≠ .busy ∧ p3.view = .atomic ∧ after (exec .encPcm p3) (·.status) = some .done := by decide +kernel
/-- One state for each of the five clauses: the checks fail one after another. -/
theorem witness_EncodeErrorsInOrder :
    (b7 0 0 0 0 0 0).family.toNat = 0 ∧ (b7 5 2 2 1 1 16).family.toNat = 5 ∧
    (1 ≤ (b7 1 0 2 1 1 16).family.toNat ∧ (b7 1 0 2 1 1 16).numLines.toNat = 0) ∧
    ((b7 3 3 2 1 1 24).family.toNat = 3 ∧ (b7 3 3 2 1 1 24).numLines.toNat % 2 = 1) ∧
    ((b7 1 2 2 1 0 16).sampleRate.toNat = 0 ∧ (b7 1 2 2 1 0 16).tScan.toNat ≠ 0) ∧
    (b7 1 2 2 1 1 15).pixLen.toNat < 4 * (b7 1 2 2 1 1 15).numLines.toNat * (b7 1 2 2 1 1 15).hPixels.toNat ∧
    (b7 1 2 2 1 1 15).status ≠ .busy ∧ (b7 1 2 2 1 1 15).view = .atomic := by decide
theorem witness_StepwiseCommandIsAccepted :
    ({ p2 with view := .segment } : State).status ≠ .busy ∧ ({ p2 with view := .sample } : State).view ≠ .atomic := by
  decide
/-- For the four schedules: the first and the last line of a two-line image, the first pair. -/
theorem witness_Schedules :
    0 < p5.numLines.toNat ∧ 1 < p5.numLines.toNat ∧ p4.numLines.toNat % 2 = 0 ∧ 0 < p4.numLines.toNat / 2 := by decide
/-- For `LiveRecordsFollowTheSchedule`: P2's schedule has 29 segments, so `k` = 28 is the last; P1's has 21. -/
theorem witness_LiveRecordsFollowTheSchedule :
    p2.status ≠ .busy ∧ p2.view = .atomic ∧
    after (exec .encLive p2) (fun t => (t.status, t.sched.length)) = some (.done, 29) ∧
    after (exec .encHdr p1) (fun t => (t.status, t.sched.length)) = some (.done, 21) := by decide +kernel
/-- For `LiveTimestampsDoNotDecrease`: two neighbours of P2, and two of one timestamp with `T_SYNC` = 0 (R203). -/
theorem witness_LiveTimestampsDoNotDecrease :
    after (exec .encLive p2) (fun t => (t.outLive[27]?, t.outLive[28]?))
      = some (some (.curveAt [22999999995 / 10000000, 1500] 2726000000 4000000), some (.set 1500 2730000000)) ∧
    after (exec .encLive { p2 with tSync := 0 }) (fun t => (t.outLive[21]?, t.outLive[22]?))
      = some (some (.set 1200 2710000000), some (.set 1500 2710000000)) := by decide +kernel
/-- A hold whose samples just fit the buffer, and one of no sample. -/
theorem witness_HoldRendersItsSamples :
    let s : State := { State.reset with running := .pcm, sampleRate := 200, outPcm := zeros 3, n := 1 }
    s.running = .pcm ∧ s.view ≠ .sample ∧ s.n + 10000000 * s.sampleRate.toNat / 1000000000 ≤ s.outPcm.length ∧
    s.n + 0 * s.sampleRate.toNat / 1000000000 ≤ s.outPcm.length := by decide
theorem witness_CurveRendersItsSamples :
    let s : State := { State.reset with running := .pcm, sampleRate := 200, outPcm := zeros 3, n := 1 }
    s.running = .pcm ∧ s.view ≠ .sample ∧ ([1500, 1900] : List Freq) ≠ [] ∧
    s.n + 2 * (10000000 * s.sampleRate.toNat / (2 * 1000000000)) ≤ s.outPcm.length := by decide +kernel
/-- A hold and a curve; a count of 0 and a positive one. -/
theorem witness_SampleStepWritesOneSample :
    midPcm.running = .pcm ∧ midPcm.view = .sample ∧ 20000000 * midPcm.sampleRate.toNat / 1000000000 = 4 ∧
    4000000 * midPcm.sampleRate.toNat / 1000000000 = 0 ∧
    20000000 * midPcm.sampleRate.toNat / (2 * 1000000000) = 2 ∧ ([1200] : List Freq)[midPcm.sub]? = some 1200 := by
  decide +kernel
theorem witness_LiveSegmentsEmitAndAdvance : midLive.running ≠ .pcm := by decide
/-- For `NoInstructionWritesHostState`, `FreqWrittenOnlyByMap` and `AlphaIsNeverRead`: instructions that answer a next
state, a `MAP_*` that fails among them; byte 3 of `PIX` is an alpha byte. -/
theorem witness_Frames :
    after (exec .mapGrey (mapState 1 1 16)) (·.status) = some .done ∧
    after (exec .mapRgb (mapState 1 2 16)) (·.status) = some .error ∧
    after (exec .encLive p2) (·.status) = some .done ∧ 3 % 4 = 3 := by decide +kernel
/-- For `SegmentFrame`: one segment in each projection. -/
theorem witness_SegmentFrame :
    after (exec (segmentInstr (.hold 1200 5)) midLive) (·.running) = some .live ∧
    after (exec (segmentInstr (.hold 1200 5)) midPcm) (·.running) = some .pcm := by decide +kernel
theorem witness_BusyDropsHostWrites :
    ({ midLive with host := [.write 0x00 .word 0] } : State).status = .busy ∧ isWrite (.write 0x00 .word 0) = true ∧
    isWrite (.pixels 0 [1]) = true ∧ isCommand .clear ∧ isCommand .encPcm := by decide
/-- For `HostReadsReturnTheField`: a move, one access for each way to reach no register, the first and the last listed
offset, the last word of a FREQ window, written and unwritten, and the reads of outputs, one index in range and the first
out of it. -/
theorem witness_HostReadsReturnTheField :
    ({ midLive with host := [.read 0x24 .half] } : State).host = [.read 0x24 .half] ∧ AccessWidth.half ≠ .word ∧
    0x25 % 4 ≠ 0 ∧ 0x90 ≤ 0x90 ∧ (∃ f, (0x0C, f) ∈ readableWords) ∧ (∃ f, (0x58, f) ∈ readableWords) ∧
    0x8C = 0x80 + 4 * 3 ∧ 3 < 4 ∧ State.reset.freq2.written = false ∧
    after (exec .mapRgb (mapState 1 1 16)) (fun t => t.freq2.written) = some true ∧
    ({ midLive with host := [.readLive 0] } : State).outLive[0]? = some (.set 1200 1000000000) ∧
    midLive.outLive.length ≤ 1 ∧ ({ midPcm with host := [.readPcm 2] } : State).outPcm[2]? = some (.value 0) ∧
    2 < midPcm.n ∧ midPcm.status = .busy ∧ midPcm.n ≤ 3 ∧ midPcm.outPcm.length ≤ 4 :=
  ⟨rfl, by decide, by decide, by decide, ⟨_, .head _⟩,
    ⟨fun s => s.numLines.toNat * (s.tScan.toNat + s.tBlank.toNat + 3 * s.tSync.toNat) / 2 ^ 32,
      by simp [readableWords, fieldRegisters]⟩, rfl, by decide, rfl, by decide +kernel, rfl, by decide, rfl, by decide, rfl,
    by decide, by decide⟩
/-- For `WrittenRegistersReadBack`: the first and the last field register, and `PIX_LEN`. -/
theorem witness_WrittenRegistersReadBack :
    (∃ field bits, (0x0C, field, bits) ∈ fieldRegisters) ∧ (∃ field bits, (0x3C, field, bits) ∈ fieldRegisters) ∧
    ({ State.reset with host := [.write 0x34 .word 5000, .read 0x34 .word] } : State).status ≠ .busy :=
  ⟨⟨fun s => s.family.toNat, 3, by simp [fieldRegisters]⟩, ⟨fun s => s.hpos.toNat, 16, by simp [fieldRegisters]⟩,
    by decide⟩
/-- For `RegisterWriteFrame`: a register and another one, a read-only offset, and a narrow write to `CMD`. -/
theorem witness_RegisterWriteFrame :
    ({ p2 with host := [.write 0x3C .word 1] } : State).status ≠ .busy ∧ (0x3C ≠ 0x00 ∧ 0x04 < 0x0C ∧ 0x3C < 0x40) ∧
    AccessWidth.half ≠ .word ∧ (∃ f b, (0x0C, f, b) ∈ fieldRegisters) ∧ 0x0C ≠ 0x3C ∧ 0x3C ≠ 0x34 :=
  ⟨by decide, by decide, by decide, ⟨fun s => s.family.toNat, 3, by simp [fieldRegisters]⟩, by decide, by decide⟩
/-- For `PixelWriteStoresItsBytes`: the first and the last populated byte, and the first that is not. -/
theorem witness_PixelWriteStoresItsBytes :
    let s : State := { State.reset with params := params 8, host := [.pixels 0 [1, 2, 3, 4, 5, 6, 7, 8, 9]] }
    s.status ≠ .busy ∧ ({ s with status := .busy } : State).status = .busy ∧
    ([1, 2, 3, 4, 5, 6, 7, 8, 9] : List Byte)[7]? = some 8 ∧ 0 + 7 < s.params.pixmemBytes ∧
    s.params.pixmemBytes ≤ 8 := by decide
theorem witness_EstDurReadsTheEstimate :
    ({ p2 with host := [.read 0x54 .word, .read 0x58 .word] } : State).host
      = [.read 0x54 .word, .read 0x58 .word] := rfl
theorem witness_ResetInputAndIdleBlock :
    ({ midLive with host := [.reset] } : State).host = [.reset] ∧ State.reset.status ≠ .busy ∧
    State.reset.host = [] := by decide
/-- For `StepKeepsPixelMemory`. -/
theorem witness_PixInv :
    ({ p2 with params := params 1024 } : State).PixInv ∧ after (step p2) (·.status) = some .idle := by
  refine ⟨⟨by decide, by decide, by decide, by decide, by decide⟩, by decide⟩
/-- For `StepKeepsStatus`: while a live command runs. -/
theorem witness_StatusInv : midLive.StatusInv ∧ after (step midLive) (·.segPtr) = some 2 := by
  refine ⟨⟨by decide, by decide, fun _ => ⟨rfl, rfl, rfl⟩, by decide, by decide, fun _ _ => rfl, .inr rfl⟩,
    by decide +kernel⟩
/-- For `StepKeepsScheduleWellFormed`, `StepKeepsTheEnginePosition`, `StepKeepsRecordsWellFormed`,
`EngineCountersFitTheirWidths`: in the middle of a live schedule. -/
theorem witness_LivePosition :
    midLive.SchedInv ∧ midLive.SeqInv ∧ midLive.RecordInv ∧ after (step midLive) (·.segPtr) = some 2 := by
  refine ⟨?_, fun _ => ⟨by decide, fun _ => ⟨by decide, by decide, by decide, fun _ => ⟨rfl, rfl, rfl, by decide⟩, ?_⟩⟩,
    ?_, by decide +kernel⟩
  · simp [State.SchedInv, midLive, Instr.WellFormed, segmentInstr, Instr.flaw, curveFlaw, timeFits]
  · exact fun h => by cases h
  · simp [State.RecordInv, midLive, Instr.WellFormed, recordInstr, Instr.flaw, timeFits]
/-- For `StepKeepsSamplesInRange`, `StepKeepsTheEnginePosition`, `StepKeepsTheSampleCounts`, `StepNeverRefuses`: in the
middle of a hold, one sample a step. -/
theorem witness_PcmPosition :
    midPcm.SchedInv ∧ midPcm.SeqInv ∧ midPcm.AmpInv ∧ midPcm.StatusInv ∧ midPcm.CountInv ∧
      after (step midPcm) (·.segPtr) = some 1 := by
  refine ⟨?_, fun _ => ⟨by decide, fun _ => ⟨by decide, by decide, by decide, ?_, fun _ => ⟨rfl, by decide, ?_, by decide⟩⟩⟩,
    ?_, ⟨by decide, by decide, fun _ => ⟨rfl, rfl, rfl⟩, by decide, fun _ _ => rfl, by decide, .inl rfl⟩, by decide,
    by decide +kernel⟩
  · simp [State.SchedInv, midPcm, Instr.WellFormed, segmentInstr, Instr.flaw, timeFits]
  · exact fun h => absurd rfl h
  · exact .inr ⟨rfl, .hold 1200 20000000, rfl, by decide, by decide⟩
  · intro a ha x hx
    obtain rfl : a = .value 0 := by simpa [midPcm, zeros] using ha
    obtain rfl : x = 0 := by simpa [ampIs] using hx
    norm_num
/-- For `StepKeepsTheSampleCounts`: a finished command. -/
theorem witness_CountInv :
    ({ State.reset with status := .done, outPcm := zeros 2, sampCount := 2, sampEmit := 2 } : State).CountInv :=
  fun _ => by decide
/-- For `StepFaultsOnlyOnUnwrittenState`: the fault and the recorded read happen, the read at the last listed offset. -/
theorem witness_StepFaultsOnlyOnUnwrittenState :
    faultOf (step { p2 with pix := [], host := [.write 0x00 .word 5] }) = some .pixUnwritten ∧
    after (step { p2 with host := [.read 0x8C .word] }) (·.readFault) = some true ∧ p2.readFault = false := by decide +kernel
/-- For `ResetMeetsTheInvariants`: the least and the greatest populated memory. -/
theorem witness_ResetMeetsTheInvariants :
    0 < (params 1).pixmemBytes ∧ (params (2 ^ 32 - 1)).pixmemBytes < 2 ^ 32 := by decide
/-- For the two refinements: a command of each kind that answers a next state, with the host's list empty. -/
theorem witness_Refinements :
    p2.status ≠ .busy ∧ p2.host = [] ∧ p2.view = .atomic ∧ View.sample ≠ .atomic ∧ View.segment ≠ .atomic ∧
    after (exec .encHdr p1) (·.status) = some .done ∧ after (exec .encLive p2) (·.status) = some .done ∧
    after (exec .encPcm p3) (·.status) = some .done := by decide +kernel
/-- For `OutputDependsOnInputsAlone`: a fresh block and one that has an earlier command's output. -/
theorem witness_OutputDependsOnInputsAlone :
    SameInputs p2 { p2 with status := .error, err := .inputSizeMismatch, outLive := [.set 1200 5] } := by
  constructor <;> first | rfl | exact fun _ _ => rfl
/-- For `UnreadOperandsDoNotMatter`. -/
theorem witness_UnreadOperandsDoNotMatter :
    p3.status ≠ .busy ∧ p3.view = .atomic ∧ after (exec .encPcm p3) (·.err) = some .none ∧
    after (exec .encLive p3) (·.err) = some .none := by decide +kernel

/-- For `ContainerLayoutAndQuantization`: the last sample of two channels, and the two ends of the range. -/
theorem witness_ContainerLayoutAndQuantization :
    44 + 3 * ([zeros 3, zeros 3] : List (List Amp)).length * 2 < 2 ^ 32 ∧ 2 < 3 ∧ ampIs (.value (-1)) (-1) ∧
    ampIs (.value 1) 1 ∧ ampIs (.sine (1 / 10)) (Real.sin (2 * Real.pi * ((1 / 10 : Rat) : ℝ))) :=
  ⟨by decide, by decide, by simp [ampIs], by simp [ampIs], rfl⟩

end Sys2Proof.Tests
end

namespace Sys2Proof.Machine

/-! ## Records as instructions -/

/-- Settles O31: a record's meaning is `emitLive`, which extends `OUT_LIVE` and is otherwise the identity. -/
theorem recordsAreAppended : Obligations.RecordsAreAppended := by
  intro s f fs t d start stop
  exact ⟨rfl, rfl, rfl⟩

/-! ## The encode commands -/

/-- The instruction of an encode command (R90 a). -/
def encodeInstr (c : EncCmd) : Instr :=
  match c with
  | .hdr => .encHdr
  | .live => .encLive
  | .pcm => .encPcm

/-- An accepted encode command right before its checks (R240, R280). -/
def acceptEncode (c : EncCmd) (s : State) : State := { accept s with running := c, phase := .checks }

/-- An encode command of a block that is not busy runs its body from the accepted state (R240). -/
theorem exec_encodeInstr (c : EncCmd) (s : State) (h : s.status ≠ .busy) :
    exec (encodeInstr c) s = encodeBody c (accept s) := by
  cases c <;> exact runCommand_accepted _ s h

/-- In the atomic view an encode command runs its checks, its building and its projection at once (R9). -/
theorem exec_encodeInstr_atomic (c : EncCmd) (s : State) (h : s.status ≠ .busy) (hv : s.view = .atomic) :
    exec (encodeInstr c) s = andThen (checkAndBuild (acceptEncode c s)) projectIfBusy := by
  rw [exec_encodeInstr c s h]
  unfold encodeBody
  split
  · rfl
  all_goals simp_all

/-- In a stepwise view an encode command's own step is its acceptance (R9, R280). -/
theorem exec_encodeInstr_stepwise (c : EncCmd) (s : State) (h : s.status ≠ .busy) (hv : s.view ≠ .atomic) :
    exec (encodeInstr c) s = .next (acceptEncode c s) := by
  rw [exec_encodeInstr c s h]
  unfold encodeBody
  split
  · exact absurd ‹_› hv
  all_goals rfl

/-- Settles O19: each command's own step is `acceptEncode`, which is R240 and R274's cleared state. -/
theorem stepwiseCommandIsAccepted : Obligations.StepwiseCommandIsAccepted := by
  intro s h hv
  exact ⟨exec_encodeInstr_stepwise .hdr s h hv, exec_encodeInstr_stepwise .live s h hv,
    exec_encodeInstr_stepwise .pcm s h hv⟩

end Sys2Proof.Machine

namespace Sys2Proof.Machine

/-! ## No instruction refuses -/

/-- The outcome is a next state or a fault. -/
def NotRefused (o : Host.Outcome State Fault Refusal) : Prop := ∀ r, o ≠ .refused r

@[simp] theorem notRefused_next (s : State) : NotRefused (.next s) := fun _ h => nomatch h

@[simp] theorem notRefused_fault (r : Fault) : NotRefused (.fault r) := fun _ h => nomatch h

/-- Going on refuses only where one of the two parts does. -/
theorem notRefused_andThen {o : Host.Outcome State Fault Refusal} {f : State → Host.Outcome State Fault Refusal}
    (ho : NotRefused o) (hf : ∀ s, NotRefused (f s)) : NotRefused (andThen o f) := by
  cases o with
  | next s => exact hf s
  | fault r => exact notRefused_fault r
  | refused r => exact absurd rfl (ho r)

/-- A command refuses only where its body does. -/
theorem notRefused_runCommand {f : State → Host.Outcome State Fault Refusal} (hf : ∀ s, NotRefused (f s)) (s : State) :
    NotRefused (runCommand f s) := by
  unfold runCommand
  split
  · exact notRefused_next s
  · exact hf (accept s)

theorem notRefused_mapPixel (w : Nat → Nat → Nat → State → State) (s : State) : NotRefused (mapPixel w s) := by
  unfold mapPixel
  split
  · split <;> simp
  · simp

theorem notRefused_build (c : EncCmd) (s : State) : NotRefused (build c s) := by
  unfold build buildImage
  split
  · simp
  · split
    · simp
    · split <;> simp

theorem notRefused_checkAndBuild (s : State) : NotRefused (checkAndBuild s) := by
  unfold checkAndBuild
  split
  · simp
  · exact notRefused_build _ s

theorem notRefused_encodeBody (c : EncCmd) (s : State) : NotRefused (encodeBody c s) := by
  unfold encodeBody
  split
  · refine notRefused_andThen (notRefused_checkAndBuild _) fun b => ?_
    unfold projectIfBusy
    split <;> simp
  all_goals simp

/-- No instruction refuses: every arm of `exec` has a meaning. -/
theorem notRefused_exec (i : Instr) (s : State) : NotRefused (exec i s) := by
  cases i with
  | clear => exact notRefused_runCommand (fun _ => notRefused_next _) s
  | mapGrey => exact notRefused_runCommand (notRefused_mapPixel _) s
  | mapRgb => exact notRefused_runCommand (notRefused_mapPixel _) s
  | mapYc => exact notRefused_runCommand (notRefused_mapPixel _) s
  | encHdr => exact notRefused_runCommand (notRefused_encodeBody _) s
  | encLive => exact notRefused_runCommand (notRefused_encodeBody _) s
  | encPcm => exact notRefused_runCommand (notRefused_encodeBody _) s
  | hold f d => exact notRefused_next _
  | curve fs d => exact notRefused_next _
  | set f t => exact notRefused_next _
  | curveAt fs t d => exact notRefused_next _
  | span start stop => exact notRefused_next _

/-- A host write refuses nothing: a command word runs `exec`, a reserved one raises an error (R242). -/
theorem notRefused_hostWrite (offset : Nat) (width : AccessWidth) (v : Word) (s : State) :
    NotRefused (hostWrite offset width v s) := by
  unfold hostWrite commandWrite
  split
  · simp
  · split
    · split
      · exact notRefused_exec _ s
      · exact notRefused_runCommand (fun _ => notRefused_next _) s
    · simp

/-- The engine's turn refuses only a segment that is no well-formed instruction, and `SCHED` has none. -/
theorem notRefused_engineTurn (s : State) (hs : s.SchedInv) : NotRefused (engineTurn s) := by
  unfold engineTurn
  split
  · simp
  · simp
  · simp
  · split
    · exact notRefused_checkAndBuild s
    · split
      · rename_i seg hseg
        have hwf : (segmentInstr seg).WellFormed := hs seg (List.mem_of_getElem? hseg)
        rw [engineSegment, if_pos hwf]
        exact notRefused_exec _ s
      · unfold engineEnd
        split
        · exact notRefused_andThen (notRefused_exec _ s) fun _ => notRefused_next _
        · exact notRefused_andThen (notRefused_exec _ s) fun _ => notRefused_next _
        · simp

/-- Settles O53: a host move refuses nothing, and the engine's turn nothing of a well-formed schedule. -/
theorem stepNeverRefuses : Obligations.StepNeverRefuses := by
  intro s r hs
  suffices h : NotRefused (step s) from h r
  unfold step turn
  split
  · exact notRefused_engineTurn s hs
  · rename_i m rest _
    cases m with
    | write offset width v => exact notRefused_hostWrite offset width v _
    | read offset width => exact notRefused_next _
    | pixels addr bytes => exact notRefused_next _
    | readLive index => exact notRefused_next _
    | readPcm index => exact notRefused_next _
    | yield => exact notRefused_engineTurn { s with host := rest } hs
    | await =>
      unfold hostTurn
      simp only
      split
      · exact notRefused_engineTurn s hs
      · exact notRefused_next _
    | reset => exact notRefused_next _

end Sys2Proof.Machine

namespace Sys2Proof.Machine

open Sys2Proof.Claims

/-! ## The checks of an encode command and what it builds -/

/-- The family of a tag is the one with that tag (R93). -/
theorem familyOf_eq_some_iff (tag : BitVec 3) (fam : Family) :
    familyOf tag = some fam ↔ tag.toNat = familyTag fam := by
  unfold familyOf
  split <;> cases fam <;> simp_all

/-- The checks of R277 find no error exactly where the conditions of R277 hold for some family. -/
theorem encodeError_eq_none_iff (c : EncCmd) (s : State) (hc : c ≠ .hdr) :
    encodeError c s = none ↔ ∃ fam, ChecksPass c fam s := by
  unfold encodeError
  split
  · contradiction
  cases hf : familyOf s.family with
  | none =>
    have hno : ∀ fam, s.family.toNat ≠ familyTag fam := fun fam h => by
      simp [(familyOf_eq_some_iff s.family fam).mpr h] at hf
    simp [hno]
  | some fam =>
    have hfam (fam' : Family) : s.family.toNat = familyTag fam' ↔ fam = fam' := by
      rw [← familyOf_eq_some_iff, hf, Option.some_inj]
    simp only [ChecksPass, hfam, exists_eq_left', ← BitVec.toNat_inj, ne_eq]
    grind

/-- Where the checks find no error they pass for the family selected. -/
theorem checksPass_of_encodeError {c : EncCmd} {fam : Family} {s : State} (hc : c ≠ .hdr)
    (he : encodeError c s = none) (hf : familyOf s.family = some fam) : ChecksPass c fam s := by
  obtain ⟨fam', hp⟩ := (encodeError_eq_none_iff c s hc).mp he
  have hfam : some fam' = some fam := ((familyOf_eq_some_iff _ _).mpr hp.1).symm.trans hf
  exact Option.some.inj hfam ▸ hp

/-- The three colour bytes of a pixel are there exactly when each of them is (R62, U3). -/
theorem pixColours_isSome_iff (m : List Host.Cell) (b : Nat) :
    (pixColours m b).isSome = true ↔ ∀ k < 3, (memRead m (b + k)).isSome = true := by
  have hthree : (∀ k < 3, (memRead m (b + k)).isSome = true) ↔
      (memRead m b).isSome = true ∧ (memRead m (b + 1)).isSome = true ∧ (memRead m (b + 2)).isSome = true :=
    ⟨fun h => ⟨h 0 (by decide), h 1 (by decide), h 2 (by decide)⟩,
      fun ⟨h0, h1, h2⟩ k hk => by interval_cases k <;> assumption⟩
  rw [hthree]
  simp only [Option.isSome_iff_exists]
  unfold pixColours
  split <;> grind

/-- An image is written when every colour byte of it is (R305 b). -/
theorem imageWritten_iff (m : List Host.Cell) (n w : Nat) :
    imageWritten m n w = true ↔
      ∀ l < n, ∀ x < w, ∀ k < 3, (memRead m (pixBase w l x + k)).isSome = true := by
  simp [imageWritten, pixColours_isSome_iff]

/-- The state an image command has built when its projection begins (R191, R199, R228). -/
def builtImage (c : EncCmd) (fam : Family) (s : State) : State :=
  allocatePcm c { s with prep := prepared fam s, sched := schedule fam s, phase := .project }

/-- An image command of a known family builds that family's image. -/
theorem build_of_familyOf (c : EncCmd) (fam : Family) (s : State) (hc : c ≠ .hdr) (hf : familyOf s.family = some fam) :
    build c s = buildImage c fam s := by
  unfold build
  split
  · contradiction
  · rw [hf]

/-- The checks and the building succeed where R277's conditions hold and the image is written. -/
theorem checkAndBuild_of_checksPass (fam : Family) (s : State) (hc : s.running ≠ .hdr)
    (hp : ChecksPass s.running fam s) (hw : imageWritten s.pix s.numLines.toNat s.hPixels.toNat = true) :
    checkAndBuild s = .next (builtImage s.running fam s) := by
  have he : encodeError s.running s = none := (encodeError_eq_none_iff _ s hc).mpr ⟨fam, hp⟩
  have hf : familyOf s.family = some fam := (familyOf_eq_some_iff s.family fam).mpr hp.1
  rw [checkAndBuild, he]
  exact (build_of_familyOf _ fam s hc hf).trans (if_pos hw)

/-- In the atomic view an image command of an encodable state projects what it has built (R199, R228). -/
theorem exec_encodeInstr_of_encodable (c : EncCmd) (fam : Family) (s : State) (hc : c ≠ .hdr) (hs : s.status ≠ .busy)
    (hv : s.view = .atomic) (h : Encodable c fam s) :
    exec (encodeInstr c) s = .next (projectAndEnd (builtImage c fam (acceptEncode c s))) := by
  have hw : imageWritten s.pix s.numLines.toNat s.hPixels.toNat = true := (imageWritten_iff _ _ _).mpr h.2
  have hb : (builtImage c fam (acceptEncode c s)).status = .busy := by cases c <;> rfl
  rw [exec_encodeInstr_atomic c s hs hv, checkAndBuild_of_checksPass fam (acceptEncode c s) hc h.1 hw]
  exact if_pos hb

/-- The counters at the end of a command: `SEG_COUNT` always, the sample counters for `ENC_PCM` (R159, R199, R228). -/
theorem setCounts_eq (s : State) :
    setCounts s =
      { s with
        segCount := BitVec.ofNat 32 s.sched.length
        sampCount :=
          if s.running = .pcm then BitVec.ofNat 64 (sampleTotal s.sampleRate.toNat s.sched) else s.sampCount
        sampEmit := if s.running = .pcm then BitVec.ofNat 64 s.n else s.sampEmit } := by
  unfold setCounts
  split <;> simp_all

/-- The projection reads `SCHED` and leaves it (R43). -/
theorem projectAndEnd_sched (s : State) : (projectAndEnd s).sched = s.sched := by
  simp only [projectAndEnd, endCommand, setCounts_eq]
  split <;> rfl

/-- `SEG_COUNT` is the length of `SCHED` after every encode command (R35). -/
theorem projectAndEnd_segCount (s : State) : (projectAndEnd s).segCount = BitVec.ofNat 32 s.sched.length := by
  simp only [projectAndEnd, endCommand, setCounts_eq]
  split <;> rfl

/-- The schedule built is the family's, a function of the host's registers and pixels alone (R12, R191). -/
theorem builtImage_sched (c : EncCmd) (fam : Family) (s : State) :
    (builtImage c fam (acceptEncode c s)).sched = schedule fam s := by
  cases c <;> rfl

/-- Settles O24: both commands project what they built, and both built the family's schedule. -/
theorem bothProjectionsShareOneSchedule : Obligations.BothProjectionsShareOneSchedule := by
  intro s fam hs hv hpcm
  obtain ⟨⟨hf, hn, hw, ht, hpd, -, hl⟩, hpix⟩ := id hpcm
  have hlive : Encodable .live fam s := ⟨⟨hf, hn, hw, ht, hpd, nofun, hl⟩, hpix⟩
  refine ⟨_, _, exec_encodeInstr_of_encodable .live fam s nofun hs hv hlive,
    exec_encodeInstr_of_encodable .pcm fam s nofun hs hv hpcm, ?_⟩
  simp only [projectAndEnd_sched, projectAndEnd_segCount, builtImage_sched, and_self]

/-! ## The segments of a schedule are well-formed -/

/-- A segment of a family's body (R190). -/
inductive BodySegment (b : BodyInput) : Segment → Prop where
  | sync : BodySegment b (syncSeg b)
  | blank : BodySegment b (blankSeg b)
  | scan (l t : Nat) : BodySegment b (scanSeg b l t)

/-- A body has nothing but syncs, blanks and scans (R192 to R195). -/
theorem bodySegment_of_mem_body (fam : Family) (b : BodyInput) : ∀ seg ∈ body fam b, BodySegment b seg := by
  have hmartin (l : Nat) : ∀ seg ∈ martinLine b l, BodySegment b seg := by
    simp [martinLine, BodySegment.sync, BodySegment.blank, BodySegment.scan]
  have hscottie (l : Nat) : ∀ seg ∈ scottieLine b l, BodySegment b seg := by
    simp [scottieLine, BodySegment.sync, BodySegment.blank, BodySegment.scan]
  have hpd (p : Nat) : ∀ seg ∈ pdPair b p, BodySegment b seg := by
    simp [pdPair, BodySegment.sync, BodySegment.blank, BodySegment.scan]
  have hwrasse (l : Nat) : ∀ seg ∈ wrasseLine b l, BodySegment b seg := by
    simp [wrasseLine, BodySegment.sync, BodySegment.blank, BodySegment.scan]
  intro seg h
  cases fam with
  | martin => obtain ⟨l, -, h⟩ := List.mem_flatMap.mp h; exact hmartin l seg h
  | scottie =>
    obtain rfl | h := List.mem_cons.mp h
    · exact .sync
    · obtain ⟨l, -, h⟩ := List.mem_flatMap.mp h; exact hscottie l seg h
  | pd => obtain ⟨p, -, h⟩ := List.mem_flatMap.mp h; exact hpd p seg h
  | wrasse => obtain ⟨l, -, h⟩ := List.mem_flatMap.mp h; exact hwrasse l seg h

/-- Every segment of a header is well-formed: its durations are constants (R151 to R157). -/
theorem header_wellFormed (v : BitVec 7) : ∀ seg ∈ header v, (segmentInstr seg).WellFormed := by
  intro seg h
  have hall : (header v).map (fun seg => (segmentInstr seg).flaw) = List.replicate 21 none := rfl
  exact List.eq_of_mem_replicate (hall ▸ List.mem_map_of_mem h)

/-- A word's value fits a Time field (R95). -/
theorem timeFits_word (w : Word) : timeFits w.toNat = true :=
  decide_eq_true (w.isLt.trans (by decide))

/-- Every segment of a schedule is well-formed once the checks have shut out lines without pixels (R95, R98). -/
theorem schedule_wellFormed (fam : Family) (s : State) (hw : s.hPixels.toNat ≠ 0) :
    ∀ seg ∈ schedule fam s, (segmentInstr seg).WellFormed := by
  intro seg h
  obtain h | h := List.mem_append.mp h
  · exact header_wellFormed _ seg h
  cases bodySegment_of_mem_body fam _ seg h with
  | sync => exact if_pos (timeFits_word s.tSync)
  | blank => exact if_pos (timeFits_word s.tBlank)
  | scan l t =>
    have hmax := s.hPixels.isLt
    refine (if_pos (timeFits_word s.tScan)).trans ?_
    simp only [curveFlaw, List.length_map, List.length_range, bodyInput, hw, if_false, ite_eq_right_iff]
    omega

/-- What the checks and the building leave is an error, or a well-formed schedule to project with a sample buffer of the
length of R221 for `ENC_PCM` (R98, R228, R277). -/
theorem checkAndBuild_schedInv (s b : State) (h : checkAndBuild s = .next b) :
    (∃ e, b = raiseError e s) ∨
      (b = { s with prep := b.prep, sched := b.sched, outPcm := b.outPcm, phase := .project } ∧ b.SchedInv ∧
        (s.running = .pcm → b.outPcm.length = sampleTotal b.sampleRate.toNat b.sched)) := by
  obtain ⟨e, -, rfl⟩ | ⟨hr, rfl⟩ | ⟨hr, he, fam, -, -, rfl⟩ := checkAndBuild_next s b h
  · exact .inl ⟨e, rfl⟩
  · exact .inr ⟨rfl, header_wellFormed _, by simp [hr]⟩
  · obtain ⟨-, -, -, hw, -⟩ := (encodeError_eq_none_iff _ s hr).mp he
    have hsched := schedule_wellFormed fam s hw
    right
    cases hc : s.running with
    | hdr => contradiction
    | live => exact ⟨rfl, hsched, nofun⟩
    | pcm => exact ⟨rfl, hsched, fun _ => List.length_replicate⟩

end Sys2Proof.Machine

namespace Sys2Proof.Machine

/-! ## Runs of at most so many steps -/

/-- Some run of at most `n` steps leads from `s` to `t`. -/
def ReachesWithin (n : Nat) (s t : State) : Prop := ∃ k ≤ n, Host.Core.run Sys2Proof.core k s = .next t

/-- A run takes its first step, then the rest. -/
theorem run_succ_next {k : Nat} {s u : State} :
    Host.Core.run Sys2Proof.core (k + 1) s = .next u ↔
      ∃ t, step s = .next t ∧ Host.Core.run Sys2Proof.core k t = .next u := by
  cases hs : step s with
  | next t =>
    have hc : Sys2Proof.core.step s = .next t := hs
    simp [Host.Core.run, hc]
  | fault r =>
    have hc : Sys2Proof.core.step s = .fault r := hs
    simp [Host.Core.run, hc]
  | refused r =>
    have hc : Sys2Proof.core.step s = .refused r := hs
    simp [Host.Core.run, hc]

theorem ReachesWithin.refl (s : State) : ReachesWithin 0 s s := ⟨0, le_rfl, rfl⟩

theorem ReachesWithin.mono {m n : Nat} {s t : State} (h : ReachesWithin m s t) (hmn : m ≤ n) : ReachesWithin n s t :=
  let ⟨k, hk, hr⟩ := h
  ⟨k, hk.trans hmn, hr⟩

/-- A first step, then a run. -/
theorem ReachesWithin.head {n : Nat} {s t u : State} (h : step s = .next t) (ht : ReachesWithin n t u) :
    ReachesWithin (n + 1) s u :=
  let ⟨k, hk, hr⟩ := ht
  ⟨k + 1, Nat.succ_le_succ hk, run_succ_next.mpr ⟨t, h, hr⟩⟩

theorem ReachesWithin.single {s t : State} (h : step s = .next t) : ReachesWithin 1 s t := .head h (.refl t)

/-- One run after another. -/
theorem ReachesWithin.trans {m n : Nat} {s t u : State} (hst : ReachesWithin m s t) (htu : ReachesWithin n t u) :
    ReachesWithin (m + n) s u := by
  obtain ⟨k, hk, hr⟩ := hst
  induction k generalizing m s with
  | zero => cases hr; exact htu.mono (Nat.le_add_left n m)
  | succ k ih =>
    obtain ⟨s', hs, hr'⟩ := run_succ_next.mp hr
    exact (ReachesWithin.head hs (ih k.le_refl hr')).mono (by omega)

/-! ## The turns of an engine that a host waits for -/

/-- While the host waits for a running command, the engine has the turn (R303). -/
theorem step_await_busy {s : State} {rest : List HostMove} (hh : s.host = .await :: rest) (hb : s.status = .busy) :
    step s = engineTurn s := by
  simp [step, turn, hh, hostTurn, hb]

/-- The wait is over once the command is. -/
theorem step_await_over {s : State} {rest : List HostMove} (hh : s.host = .await :: rest) (hb : s.status ≠ .busy) :
    step s = .next { s with host := rest } := by
  simp [step, turn, hh, hostTurn, hb]

/-- The engine's turn at a well-formed segment runs it (R198, R222, R232). -/
theorem engineTurn_segment {s : State} {seg : Segment} (hb : s.status = .busy) (hp : s.phase = .project)
    (hseg : s.sched[s.segPtr]? = some seg) (hwf : (segmentInstr seg).WellFormed) :
    engineTurn s = .next (runSegment seg s) := by
  simp only [engineTurn, hb, hp, hseg, engineSegment, if_pos hwf]
  cases seg <;> rfl

/-- The state a command ends in when its schedule is exhausted: the closing `SPAN` of a live command, the counters, `DONE`
(R198, R200, R228). -/
def finish (s : State) : State := endCommand (if s.running = .pcm then s else emitLive (.span (startTime s) s.tAcc) s)

/-- The engine's turn at the end of the schedule ends the command. -/
theorem engineTurn_finish {s : State} (hb : s.status = .busy) (hp : s.phase = .project)
    (hseg : s.sched[s.segPtr]? = none) : engineTurn s = .next (finish s) := by
  simp only [engineTurn, hb, hp, hseg, engineEnd, finish]
  cases hr : s.running <;> rfl

/-! ## One segment, whole -/

/-- One segment of the running command's projection, whole (R198, R228). -/
def projectSegment (s : State) (seg : Segment) : State :=
  if s.running = .pcm then runPcmSegment seg s else runLive seg s

/-- The segments `segs` of the running command's projection, one after the other. -/
def projectSegments (segs : List Segment) (s : State) : State := segs.foldl projectSegment s

/-- A segment's projection writes the outputs and the sequencer, and moves on to the next segment. -/
theorem projectSegment_frame (s : State) (seg : Segment) :
    projectSegment s seg =
      { s with
        outLive := (projectSegment s seg).outLive, tAcc := (projectSegment s seg).tAcc,
        outPcm := (projectSegment s seg).outPcm, n := (projectSegment s seg).n, segPtr := s.segPtr + 1, sub := 0,
        j := 0 } := by
  unfold projectSegment
  split <;> rfl

/-- Segment by segment the live walk does what it does at once (R198). -/
theorem projectSegments_live (segs : List Segment) (s : State) (hr : s.running ≠ .pcm) (hsub : s.sub = 0)
    (hj : s.j = 0) :
    projectSegments segs s =
      { s with
        outLive := s.outLive ++ liveRecords s.tAcc segs, tAcc := s.tAcc + totalDuration segs,
        segPtr := s.segPtr + segs.length } := by
  induction segs generalizing s with
  | nil => simp [projectSegments, liveRecords, totalDuration]
  | cons seg rest ih =>
    have hrun : projectSegment s seg = runLive seg s := if_neg hr
    have hrest := ih (runLive seg s) hr rfl rfl
    rw [projectSegments] at hrest ⊢
    rw [List.foldl_cons, hrun, hrest]
    simp [runLive, liveRecords, totalDuration, nextSegment, emitLive, hsub, hj, Nat.add_assoc, Nat.add_comm 1]

/-- The synthesizer reads registers and parameters alone (R224). -/
theorem synthOf_runPcmSegment (seg : Segment) (s : State) : synthOf (runPcmSegment seg s) = synthOf s := rfl

theorem pcmBuf_runPcmSegment (seg : Segment) (s : State) :
    pcmBuf (runPcmSegment seg s) = renderSegment (synthOf s) seg (pcmBuf s) := rfl

/-- Segment by segment the sample walk does what it does at once (R228). -/
theorem projectSegments_pcm (segs : List Segment) (s : State) (hr : s.running = .pcm) (hsub : s.sub = 0)
    (hj : s.j = 0) :
    projectSegments segs s =
      { withPcm (renderAll (synthOf s) segs (pcmBuf s)) s with segPtr := s.segPtr + segs.length } := by
  induction segs generalizing s with
  | nil => rfl
  | cons seg rest ih =>
    have hrun : projectSegment s seg = runPcmSegment seg s := if_pos hr
    have hrest := ih (runPcmSegment seg s) hr rfl rfl
    rw [projectSegments] at hrest ⊢
    rw [List.foldl_cons, hrun, hrest, synthOf_runPcmSegment, pcmBuf_runPcmSegment]
    simp [runPcmSegment, renderAll, nextSegment, withPcm, hsub, hj, Nat.add_assoc, Nat.add_comm 1]

/-- At once, `ENC_PCM` projects its samples and finishes. -/
theorem projectAndEnd_of_pcm {s : State} (hr : s.running = .pcm) : projectAndEnd s = finish (projectPcm s) := by
  rw [finish, if_pos (show (projectPcm s).running = .pcm from hr)]
  simp only [projectAndEnd, hr]

/-- At once, a live command projects its records and finishes. -/
theorem projectAndEnd_of_live {s : State} (hr : s.running ≠ .pcm) : projectAndEnd s = finish (projectLive s) := by
  rw [finish, if_neg (show (projectLive s).running ≠ .pcm from hr)]
  unfold projectAndEnd
  split
  · rfl
  · rfl
  · contradiction

/-- Segment by segment a command ends where its atomic transition ends. -/
theorem finish_projectSegments (s : State) (hptr : s.segPtr = 0) (hsub : s.sub = 0) (hj : s.j = 0) :
    finish (projectSegments s.sched s) = projectAndEnd s := by
  by_cases hr : s.running = .pcm
  · rw [projectAndEnd_of_pcm hr, projectSegments_pcm _ s hr hsub hj, projectPcm, hptr, Nat.zero_add]
    simp [withPcm, hsub, hj]
  · rw [projectAndEnd_of_live hr, projectSegments_live _ s hr hsub hj, projectLive, hptr, hsub, hj, Nat.zero_add]

/-! ## The samples of one segment, one a step -/

/-- `s` with the sample walk standing at `(sub, j)` of its segment and `b` rendered so far (R232). -/
def samplePlace (s : State) (sub j : Nat) (b : PcmBuf) : State := { withPcm b s with sub := sub, j := j }

/-- `s` with the samples of frequency `sub` of its segment all rendered: at the next frequency, or at the next segment
(R232). -/
def afterFreq (s : State) (seg : Segment) (sub : Nat) (b : PcmBuf) : State :=
  if sub + 1 < (segFreqs seg).length then samplePlace s (sub + 1) 0 b else nextSegment (withPcm b s)

/-- A running `ENC_PCM` in the sample view, its host waiting, at the well-formed segment `seg`. -/
structure SampleWalk (s : State) (seg : Segment) : Prop where
  busy : s.status = .busy
  project : s.phase = .project
  host : s.host = [.await]
  running : s.running = .pcm
  view : s.view = .sample
  atSeg : s.sched[s.segPtr]? = some seg
  wf : (segmentInstr seg).WellFormed

/-- The step at any place of the segment is one step of R232. -/
theorem SampleWalk.step_eq {s : State} {seg : Segment} (hs : SampleWalk s seg) (sub j : Nat) (b : PcmBuf) :
    step (samplePlace s sub j b) = .next (runPcmSample seg (samplePlace s sub j b)) := by
  have hb : (samplePlace s sub j b).status = .busy := hs.busy
  have hrun : runSegment seg (samplePlace s sub j b) = runPcmSample seg (samplePlace s sub j b) := by
    have hr : (samplePlace s sub j b).running = .pcm := hs.running
    have hv : (samplePlace s sub j b).view = .sample := hs.view
    rw [runSegment, hr, hv]
  have hh : (samplePlace s sub j b).host = [.await] := hs.host
  rw [step_await_busy hh hb, engineTurn_segment hb hs.project hs.atSeg hs.wf, hrun]

/-- The sample at a place is written, and the walk moves by one sample (R232). -/
theorem runPcmSample_samplePlace (s : State) (seg : Segment) (sub j : Nat) (b : PcmBuf) (f : Freq)
    (hc : segSamples s.sampleRate.toNat seg ≠ 0) (hf : (segFreqs seg)[sub]? = some f) :
    runPcmSample seg (samplePlace s sub j b) =
      if j + 1 < segSamples s.sampleRate.toNat seg then samplePlace s sub (j + 1) (renderOne (synthOf s) f b)
      else afterFreq s seg sub (renderOne (synthOf s) f b) := by
  have hc' : ¬ segSamples (samplePlace s sub j b).sampleRate.toNat seg = 0 := hc
  have hf' : (segFreqs seg)[(samplePlace s sub j b).sub]? = some f := hf
  simp only [runPcmSample, if_neg hc', hf']
  rfl

/-- The samples of one frequency, `m + 1` of them still to write. -/
theorem SampleWalk.reaches_afterFreq {s : State} {seg : Segment} (hs : SampleWalk s seg) {f : Freq} {sub : Nat}
    (hf : (segFreqs seg)[sub]? = some f) (m j : Nat) (b : PcmBuf)
    (hm : j + m + 1 = segSamples s.sampleRate.toNat seg) :
    ReachesWithin (m + 1) (samplePlace s sub j b) (afterFreq s seg sub (renderTimes (synthOf s) f (m + 1) b)) := by
  induction m generalizing j b with
  | zero =>
    have hstep := hs.step_eq sub j b
    rw [runPcmSample_samplePlace s seg sub j b f (by omega) hf, if_neg (by omega)] at hstep
    exact .single hstep
  | succ m ih =>
    have hstep := hs.step_eq sub j b
    rw [runPcmSample_samplePlace s seg sub j b f (by omega) hf, if_pos (by omega)] at hstep
    exact .head hstep (ih (j + 1) _ (by omega))

/-- The samples of the frequency the walk stands at the beginning of. -/
theorem SampleWalk.reaches_frequency {s : State} {seg : Segment} (hs : SampleWalk s seg)
    (hc : segSamples s.sampleRate.toNat seg ≠ 0) {f : Freq} {rest : List Freq} {sub : Nat}
    (hf : (segFreqs seg).drop sub = f :: rest) (b : PcmBuf) :
    ReachesWithin (segSamples s.sampleRate.toNat seg) (samplePlace s sub 0 b)
      (afterFreq s seg sub (renderTimes (synthOf s) f (segSamples s.sampleRate.toNat seg) b)) := by
  obtain ⟨m, hm⟩ := Nat.exists_eq_succ_of_ne_zero hc
  have hget : (segFreqs seg)[sub]? = some f := by rw [← List.head?_drop, hf, List.head?_cons]
  have hfreq := hs.reaches_afterFreq hget m 0 b (by omega)
  rwa [← Nat.succ_eq_add_one, ← hm] at hfreq

/-- The samples of the frequencies from number `sub` on. -/
theorem SampleWalk.reaches_nextSegment {s : State} {seg : Segment} (hs : SampleWalk s seg)
    (hc : segSamples s.sampleRate.toNat seg ≠ 0) (rest : List Freq) (f : Freq) (sub : Nat) (b : PcmBuf)
    (hf : (segFreqs seg).drop sub = f :: rest) :
    ReachesWithin ((rest.length + 1) * segSamples s.sampleRate.toNat seg) (samplePlace s sub 0 b)
      (nextSegment (withPcm (renderFreqs (synthOf s) (segSamples s.sampleRate.toNat seg) (f :: rest) b) s)) := by
  induction rest generalizing f sub b with
  | nil =>
    have hfreq := hs.reaches_frequency hc hf b
    have hend : ¬ sub + 1 < (segFreqs seg).length := by
      have := congrArg List.length hf
      simp at this
      omega
    rw [afterFreq, if_neg hend] at hfreq
    simpa [renderFreqs] using hfreq
  | cons g rest ih =>
    have hfreq := hs.reaches_frequency hc hf b
    have hmore : sub + 1 < (segFreqs seg).length := by
      have := congrArg List.length hf
      simp at this
      omega
    have hdrop : (segFreqs seg).drop (sub + 1) = g :: rest := by
      rw [← List.tail_drop, hf, List.tail_cons]
    rw [afterFreq, if_pos hmore] at hfreq
    refine (hfreq.trans (ih g (sub + 1) _ hdrop)).mono (le_of_eq ?_)
    rw [List.length_cons]
    ring

end Sys2Proof.Machine

namespace Sys2Proof.Machine

open Sys2Proof.Claims

/-! ## The whole schedule, a turn at a time -/

/-- The turns a segment takes at most: one, and in the sample walk one for each of its samples (R202, R232). -/
def turnBound (c : EncCmd) (rate : Nat) (seg : Segment) : Nat := 1 + if c = .pcm then segYield rate seg else 0

/-- A command in the middle of its projection, at the beginning of a segment or at the end, its host waiting. -/
structure Projecting (s : State) : Prop where
  busy : s.status = .busy
  project : s.phase = .project
  host : s.host = [.await]
  sched : s.SchedInv
  sub : s.sub = 0
  j : s.j = 0

/-- A segment without samples leaves the buffer as it is (R222, R223). -/
theorem renderFreqs_zero (c : Synth) (fs : List Freq) (b : PcmBuf) : renderFreqs c 0 fs b = b := by
  induction fs with
  | nil => rfl
  | cons f rest ih => exact ih

/-- A well-formed segment has a frequency to play (R98). -/
theorem segFreqs_ne_nil {seg : Segment} (hwf : (segmentInstr seg).WellFormed) : segFreqs seg ≠ [] := by
  cases seg with
  | hold f d => exact List.cons_ne_nil _ _
  | curve fs d =>
    rintro rfl
    simp [segmentInstr, Instr.WellFormed, Instr.flaw, curveFlaw] at hwf
    split at hwf <;> contradiction

/-- Sample by sample the walk does to a segment what it does to it whole (R228, R232). -/
theorem SampleWalk.reaches_runPcmSegment {s : State} {seg : Segment} (hs : SampleWalk s seg) (hsub : s.sub = 0)
    (hj : s.j = 0) : ReachesWithin (1 + segYield s.sampleRate.toNat seg) s (runPcmSegment seg s) := by
  have hstart : samplePlace s 0 0 (pcmBuf s) = s := by
    calc samplePlace s 0 0 (pcmBuf s) = samplePlace s s.sub s.j (pcmBuf s) := by rw [hsub, hj]
      _ = s := rfl
  by_cases hc : segSamples s.sampleRate.toNat seg = 0
  · have hstep := hs.step_eq 0 0 (pcmBuf s)
    rw [hstart, runPcmSample, if_pos hc] at hstep
    have hwhole : runPcmSegment seg s = nextSegment s := by
      rw [runPcmSegment, renderSegment, show segSamples (synthOf s).rate seg = 0 from hc, renderFreqs_zero]
      rfl
    rw [hwhole]
    exact (ReachesWithin.single hstep).mono (Nat.le_add_right 1 _)
  · obtain ⟨f, rest, hfs⟩ := List.exists_cons_of_ne_nil (segFreqs_ne_nil hs.wf)
    have hrun := hs.reaches_nextSegment hc rest f 0 (pcmBuf s) hfs
    rw [hstart, ← hfs] at hrun
    refine hrun.mono ?_
    rw [segYield, hfs, List.length_cons]
    exact Nat.le_add_left _ 1

/-- In each view a segment's turns do to it what its projection does to it whole. -/
theorem Projecting.reaches_projectSegment {s : State} (hs : Projecting s) {seg : Segment}
    (hseg : s.sched[s.segPtr]? = some seg) :
    ReachesWithin (turnBound s.running s.sampleRate.toNat seg) s (projectSegment s seg) := by
  have hwf : (segmentInstr seg).WellFormed := hs.sched seg (List.mem_of_getElem? hseg)
  have hstep : step s = .next (runSegment seg s) :=
    (step_await_busy hs.host hs.busy).trans (engineTurn_segment hs.busy hs.project hseg hwf)
  unfold runSegment at hstep
  rw [turnBound, projectSegment]
  by_cases hr : s.running = .pcm
  · rw [if_pos hr, if_pos hr]
    cases hv : s.view with
    | sample =>
      exact SampleWalk.reaches_runPcmSegment ⟨hs.busy, hs.project, hs.host, hr, hv, hseg, hwf⟩ hs.sub hs.j
    | atomic => exact (ReachesWithin.single (by simpa [hr, hv] using hstep)).mono (Nat.le_add_right 1 _)
    | segment => exact (ReachesWithin.single (by simpa [hr, hv] using hstep)).mono (Nat.le_add_right 1 _)
  · rw [if_neg hr, if_neg hr]
    refine .single ?_
    split at hstep
    · exact hstep
    · exact hstep
    · contradiction

/-- After a segment the command is still in the middle of its projection. -/
theorem Projecting.next {s : State} (hs : Projecting s) (seg : Segment) : Projecting (projectSegment s seg) := by
  rw [projectSegment_frame]
  exact ⟨hs.busy, hs.project, hs.host, hs.sched, rfl, rfl⟩

/-- From the segment at `SEG_PTR` on, the turns project the rest of the schedule and end the command. -/
theorem Projecting.reaches_finish {s : State} (hs : Projecting s) (rest : List Segment)
    (hrest : s.sched.drop s.segPtr = rest) :
    ReachesWithin ((rest.map (turnBound s.running s.sampleRate.toNat)).sum + 1) s
      (finish (projectSegments rest s)) := by
  induction rest generalizing s with
  | nil =>
    have hend : s.sched[s.segPtr]? = none := by rw [← List.head?_drop, hrest, List.head?_nil]
    exact .single ((step_await_busy hs.host hs.busy).trans (engineTurn_finish hs.busy hs.project hend))
  | cons seg rest ih =>
    have hseg : s.sched[s.segPtr]? = some seg := by rw [← List.head?_drop, hrest, List.head?_cons]
    have hdrop : (projectSegment s seg).sched.drop (projectSegment s seg).segPtr = rest := by
      rw [projectSegment_frame]
      exact List.tail_drop.symm.trans (congrArg List.tail hrest)
    have htail := ih (hs.next seg) hdrop
    rw [show (projectSegment s seg).running = s.running by rw [projectSegment_frame],
      show (projectSegment s seg).sampleRate = s.sampleRate by rw [projectSegment_frame]] at htail
    refine ((hs.reaches_projectSegment hseg).trans htail).mono (le_of_eq ?_)
    rw [List.map_cons, List.sum_cons, Nat.add_assoc]

/-! ## The samples of a schedule fit its buffer (R226) -/

/-- The samples of a segment last no longer than the segment (R222, R223). -/
theorem segYield_mul_le (rate : Nat) (seg : Segment) : segYield rate seg * nsPerSecond ≤ segDuration seg * rate := by
  cases seg with
  | hold f d =>
    rw [segYield, segFreqs, List.length_singleton, Nat.one_mul]
    exact Nat.div_mul_le_self _ _
  | curve fs d =>
    calc segYield rate (.curve fs d) * nsPerSecond
        = d * rate / (fs.length * nsPerSecond) * (fs.length * nsPerSecond) := by
          simp only [segYield, segFreqs, segSamples]; ring
      _ ≤ d * rate := Nat.div_mul_le_self _ _

/-- The samples the segments yield are no more than the schedule's whole duration has (R221, R226). -/
theorem schedYield_le_sampleTotal (rate : Nat) (sched : List Segment) : schedYield rate sched ≤ sampleTotal rate sched := by
  have hmul : schedYield rate sched * nsPerSecond ≤ totalDuration sched * rate := by
    induction sched with
    | nil => simp [schedYield]
    | cons seg rest ih =>
      have hseg := segYield_mul_le rate seg
      simp only [schedYield, totalDuration, List.map_cons, List.sum_cons, Nat.add_mul] at ih ⊢
      omega
  exact (Nat.le_div_iff_mul_le (by decide)).mpr hmul

/-- The turns of a schedule: one a segment, and no more than the buffer has samples besides (R202, R232). -/
theorem sum_turnBound_le (c : EncCmd) (rate : Nat) (sched : List Segment) :
    (sched.map (turnBound c rate)).sum ≤ sched.length + if c = .pcm then sampleTotal rate sched else 0 := by
  have hsum : (sched.map (turnBound c rate)).sum = sched.length + if c = .pcm then schedYield rate sched else 0 := by
    induction sched with
    | nil => simp [schedYield]
    | cons seg rest ih =>
      rw [List.map_cons, List.sum_cons, ih, turnBound, List.length_cons]
      split
      · simp only [schedYield, List.map_cons, List.sum_cons]
        omega
      · omega
  have := schedYield_le_sampleTotal rate sched
  rw [hsum]
  split <;> omega

end Sys2Proof.Machine

namespace Sys2Proof.Machine

open Sys2Proof.Claims

/-! ## The stepwise views and the atomic one (R9) -/

/-- `s` in the view `v`, its host waiting for the end of a command. -/
def awaiting (v : View) (s : State) : State := { s with view := v, host := [.await] }

/-- What is built is the same in every view. -/
theorem builtImage_awaiting (v : View) (c : EncCmd) (fam : Family) (s : State) :
    builtImage c fam (awaiting v s) = awaiting v (builtImage c fam s) := by
  cases c <;> rfl

/-- The checks and the building read neither the view nor the host's moves (R9). -/
theorem checkAndBuild_awaiting {v : View} {s b : State} (h : checkAndBuild s = .next b) :
    checkAndBuild (awaiting v s) = .next (awaiting v b) := by
  obtain ⟨e, he, rfl⟩ | ⟨hr, rfl⟩ | ⟨hr, he, fam, hf, hw, rfl⟩ := checkAndBuild_next s b h
  · have he' : encodeError (awaiting v s).running (awaiting v s) = some e := by
      rw [← he]; rfl
    rw [checkAndBuild, he']
    rfl
  · have hr' : (awaiting v s).running = .hdr := hr
    rw [checkAndBuild, hr']
    rfl
  · have hb := checkAndBuild_of_checksPass fam (awaiting v s) hr (checksPass_of_encodeError hr he hf) hw
    exact hb.trans (congrArg Host.Outcome.next (builtImage_awaiting v s.running fam s))

/-- The end of a command reads neither the view nor the host's moves. -/
theorem finish_awaiting (v : View) (s : State) : finish (awaiting v s) = awaiting v (finish s) := by
  have hset (x : State) : setCounts (awaiting v x) = awaiting v (setCounts x) := by
    rw [setCounts_eq, setCounts_eq]
    rfl
  have hend (x : State) : endCommand (awaiting v x) = awaiting v (endCommand x) := by
    rw [endCommand, hset]; rfl
  unfold finish
  by_cases hr : s.running = .pcm
  · rw [if_pos hr, if_pos (show (awaiting v s).running = .pcm from hr), hend]
  · rw [if_neg hr, if_neg (show (awaiting v s).running ≠ .pcm from hr), ← hend]
    rfl

/-- The projection reads neither the view nor the host's moves (R9). -/
theorem projectAndEnd_awaiting (v : View) (s : State) :
    projectAndEnd (awaiting v s) = awaiting v (projectAndEnd s) := by
  by_cases hr : s.running = .pcm
  · rw [projectAndEnd_of_pcm hr, projectAndEnd_of_pcm (show (awaiting v s).running = .pcm from hr), ← finish_awaiting]
    rfl
  · rw [projectAndEnd_of_live hr, projectAndEnd_of_live (show (awaiting v s).running ≠ .pcm from hr),
      ← finish_awaiting]
    rfl

/-- A projection leaves the host's moves, and ends in `DONE` (R50). -/
theorem projectAndEnd_host (s : State) : (projectAndEnd s).host = s.host := by
  simp only [projectAndEnd, endCommand, setCounts_eq]
  split <;> rfl

theorem projectAndEnd_status (s : State) : (projectAndEnd s).status = .done := by
  unfold projectAndEnd
  split <;> rfl

/-! ### The outputs of a successful encode command -/

/-- The record stream a command ends with: a live command's records and its `SPAN` (R198, R200). -/
theorem projectAndEnd_outLive (s : State) :
    (projectAndEnd s).outLive =
      if s.running = .pcm then s.outLive
      else s.outLive ++ liveRecords s.tAcc s.sched ++ [.span (startTime s) (s.tAcc + totalDuration s.sched)] := by
  simp only [projectAndEnd, endCommand, setCounts_eq]
  split <;> rename_i hr <;> rw [hr] <;> rfl

/-- The sample buffer a command ends with (R228). -/
theorem projectAndEnd_outPcm (s : State) :
    (projectAndEnd s).outPcm =
      if s.running = .pcm then (renderAll (synthOf s) s.sched (pcmBuf s)).samples else s.outPcm := by
  simp only [projectAndEnd, endCommand, setCounts_eq]
  split <;> rename_i hr <;> rw [hr] <;> rfl

/-- `SAMP_COUNT` at the end of a command (R221). -/
theorem projectAndEnd_sampCount (s : State) :
    (projectAndEnd s).sampCount =
      if s.running = .pcm then BitVec.ofNat 64 (sampleTotal s.sampleRate.toNat s.sched) else s.sampCount := by
  simp only [projectAndEnd, endCommand, setCounts_eq]
  split <;> rename_i hr <;> simp [hr, projectLive, projectPcm]

/-- `SAMP_EMIT` at the end of a command is `N` (R226). -/
theorem projectAndEnd_sampEmit (s : State) :
    (projectAndEnd s).sampEmit =
      if s.running = .pcm then BitVec.ofNat 64 (renderAll (synthOf s) s.sched (pcmBuf s)).n else s.sampEmit := by
  simp only [projectAndEnd, endCommand, setCounts_eq]
  split <;> rename_i hr <;> simp [hr, projectLive, projectPcm]

/-- A success leaves the error code acceptance cleared (R34, R50). -/
theorem projectAndEnd_err (s : State) : (projectAndEnd s).err = s.err := by
  simp only [projectAndEnd, endCommand, setCounts_eq]
  split <;> rfl

/-! ### Rendering keeps the length of the buffer -/

theorem renderTimes_length (c : Synth) (f : Freq) (k : Nat) (b : PcmBuf) :
    (renderTimes c f k b).samples.length = b.samples.length := by
  induction k generalizing b with
  | zero => rfl
  | succ k ih => exact (ih _).trans List.length_set

theorem renderFreqs_length (c : Synth) (k : Nat) (fs : List Freq) (b : PcmBuf) :
    (renderFreqs c k fs b).samples.length = b.samples.length := by
  induction fs generalizing b with
  | nil => rfl
  | cons f rest ih => exact (ih _).trans (renderTimes_length c f k b)

/-- A schedule is rendered into a buffer whose length stays (R228). -/
theorem renderAll_length (c : Synth) (sched : List Segment) (b : PcmBuf) :
    (renderAll c sched b).samples.length = b.samples.length := by
  induction sched generalizing b with
  | nil => rfl
  | cons seg rest ih => exact (ih _).trans (renderFreqs_length _ _ _ _)

/-- `ENC_PCM` ends with a buffer of the length it began to project with (R221, R228). -/
theorem projectAndEnd_outPcm_length {s : State} (hr : s.running = .pcm) :
    (projectAndEnd s).outPcm.length = s.outPcm.length := by
  rw [projectAndEnd_outPcm, if_pos hr]
  exact renderAll_length _ _ _

/-! ### From the accepted command to its end -/

/-- A built command with its host waiting runs its whole schedule a turn at a time, to the state its projection reaches
at once (R202, R232). -/
theorem reaches_projectAndEnd (v : View) (b : State) (hb : b.status = .busy) (hp : b.phase = .project)
    (hs : b.SchedInv) (hptr : b.segPtr = 0) (hsub : b.sub = 0) (hj : b.j = 0) :
    ReachesWithin ((b.sched.map (turnBound b.running b.sampleRate.toNat)).sum + 1) (awaiting v b)
      (awaiting v (projectAndEnd b)) := by
  have hproj : Projecting (awaiting v b) := ⟨hb, hp, rfl, hs, hsub, hj⟩
  have hrest : (awaiting v b).sched.drop (awaiting v b).segPtr = b.sched := by
    rw [show (awaiting v b).segPtr = 0 from hptr]; rfl
  have hrun := hproj.reaches_finish b.sched hrest
  rwa [show projectSegments b.sched = projectSegments (awaiting v b).sched from rfl,
    finish_projectSegments (awaiting v b) hptr hsub hj, projectAndEnd_awaiting] at hrun

/-- A finished command ends the wait. -/
theorem reaches_awaited (v : View) {t : State} (ht : t.status ≠ .busy) (hh : t.host = []) :
    ReachesWithin 1 (awaiting v t) { t with view := v } := by
  have hstep : step (awaiting v t) = .next { awaiting v t with host := [] } := step_await_over rfl ht
  rw [← hh] at hstep
  exact .single hstep

/-- In a stepwise view a step at a `CMD` write of an encode command's word accepts the command (R240, R280). -/
theorem step_encodeWord (c : EncCmd) (v : View) (w : Word) (s : State) (hw : decodeCommand w = some (encodeInstr c))
    (hs : s.status ≠ .busy) (hv : v ≠ .atomic) :
    step { s with view := v, host := [.write 0x00 .word w, .await] } = .next (awaiting v (acceptEncode c s)) := by
  have hwrite : step { s with view := v, host := [.write 0x00 .word w, .await] } = commandWrite w (awaiting v s) :=
    if_neg hs
  rw [hwrite, commandWrite, hw]
  exact exec_encodeInstr_stepwise c (awaiting v s) hs hv

/-- In either stepwise view an encode command written and waited for reaches its atomic result: the write, the checks, the
turns of the schedule, the end, and the end of the wait (R9, R202, R232). -/
theorem stepwise_reaches_atomic (c : EncCmd) (s t : State) (v : View) (w : Word)
    (hw : decodeCommand w = some (encodeInstr c)) (hs : s.status ≠ .busy) (hhost : s.host = []) (hview : s.view = .atomic)
    (hv : v ≠ .atomic) (h : exec (encodeInstr c) s = .next t) :
    ReachesWithin (t.sched.length + (if c = .pcm then t.outPcm.length else 0) + 4)
      { s with view := v, host := [.write 0x00 .word w, .await] } { t with view := v } := by
  rw [exec_encodeInstr_atomic c s hs hview, andThen_next] at h
  obtain ⟨b, hbuild, ht⟩ := h
  have hchecks : ReachesWithin 2 { s with view := v, host := [.write 0x00 .word w, .await] } (awaiting v b) := by
    refine .head (step_encodeWord c v w s hw hs hv) (.single ?_)
    exact (step_await_busy rfl rfl).trans (checkAndBuild_awaiting hbuild)
  obtain ⟨e, rfl⟩ | ⟨hb, hsched, hlen⟩ := checkAndBuild_schedInv _ b hbuild
  · obtain rfl : _ = t := Host.Outcome.next.inj ht
    exact (hchecks.trans (reaches_awaited v nofun hhost)).mono (by omega)
  · have hbusy : b.status = .busy := by rw [hb]; rfl
    have hrunning : b.running = c := by rw [hb]; rfl
    have hbhost : b.host = [] := by rw [hb]; exact hhost
    obtain rfl : projectAndEnd b = t := by
      rw [projectIfBusy, if_pos hbusy] at ht
      exact Host.Outcome.next.inj ht
    have hturns := reaches_projectAndEnd v b hbusy (by rw [hb]) hsched (by rw [hb]; rfl) (by rw [hb]; rfl)
      (by rw [hb]; rfl)
    have hend := reaches_awaited v (t := projectAndEnd b) (by rw [projectAndEnd_status]; exact nofun)
      ((projectAndEnd_host b).trans hbhost)
    have hbound := sum_turnBound_le b.running b.sampleRate.toNat b.sched
    refine ((hchecks.trans hturns).trans hend).mono ?_
    rw [projectAndEnd_sched]
    rw [hrunning] at hbound ⊢
    by_cases hc : c = .pcm
    · rw [if_pos hc] at hbound ⊢
      rw [projectAndEnd_outPcm_length (hrunning.trans hc), hlen hc]
      omega
    · rw [if_neg hc] at hbound ⊢
      omega

/-- Settles O55: a live command's turns, one a segment. -/
theorem stepwiseLiveReachesTheAtomicResult : Obligations.StepwiseLiveReachesTheAtomicResult := by
  rintro s t i w v (⟨rfl, rfl⟩ | ⟨rfl, rfl⟩) hs hhost hview hv h
  · exact stepwise_reaches_atomic .hdr s t v 4 rfl hs hhost hview hv h
  · exact stepwise_reaches_atomic .live s t v 5 rfl hs hhost hview hv h

/-- Settles O56: the turns of `ENC_PCM`, one a segment or one a sample. -/
theorem stepwisePcmReachesTheAtomicResult : Obligations.StepwisePcmReachesTheAtomicResult := by
  intro s t v hs hhost hview hv h
  exact stepwise_reaches_atomic .pcm s t v 6 rfl hs hhost hview hv h

end Sys2Proof.Machine

namespace Sys2Proof.Claims

open Sys2Proof.Machine

/-! ## What a command reads of its inputs (R11) -/

/-- What a command hands to the host when its step is over (R11). -/
structure SameOutputs (t t' : State) : Prop where
  status : t'.status = t.status
  err : t'.err = t.err
  outLive : t'.outLive = t.outLive
  outPcm : t'.outPcm = t.outPcm
  segCount : t'.segCount = t.segCount
  sampCount : t'.sampCount = t.sampCount
  sampEmit : t'.sampEmit = t.sampEmit

theorem sameOutputs_raiseError (e : ErrCode) (s s' : State) : SameOutputs (raiseError e s) (raiseError e s') :=
  ⟨rfl, rfl, rfl, rfl, rfl, rfl, rfl⟩

theorem SameInputs.symm {s s' : State} (h : SameInputs s s') : SameInputs s' s where
  family := h.family.symm
  numLines := h.numLines.symm
  hPixels := h.hPixels.symm
  tBlank := h.tBlank.symm
  tScan := h.tScan.symm
  tSync := h.tSync.symm
  visCode := h.visCode.symm
  sampleRate := h.sampleRate.symm
  t0Lo := h.t0Lo.symm
  t0Hi := h.t0Hi.symm
  pixLen := h.pixLen.symm
  line := h.line.symm
  hpos := h.hpos.symm
  pixels a ha := (h.pixels a (h.pixLen ▸ ha)).symm
  num := h.num.symm
  n0 := h.n0.symm
  view := h.view.symm

theorem SameInputs.trans {s t u : State} (h : SameInputs s t) (h' : SameInputs t u) : SameInputs s u where
  family := h.family.trans h'.family
  numLines := h.numLines.trans h'.numLines
  hPixels := h.hPixels.trans h'.hPixels
  tBlank := h.tBlank.trans h'.tBlank
  tScan := h.tScan.trans h'.tScan
  tSync := h.tSync.trans h'.tSync
  visCode := h.visCode.trans h'.visCode
  sampleRate := h.sampleRate.trans h'.sampleRate
  t0Lo := h.t0Lo.trans h'.t0Lo
  t0Hi := h.t0Hi.trans h'.t0Hi
  pixLen := h.pixLen.trans h'.pixLen
  line := h.line.trans h'.line
  hpos := h.hpos.trans h'.hpos
  pixels a ha := (h.pixels a ha).trans (h'.pixels a (h.pixLen ▸ ha))
  num := h.num.trans h'.num
  n0 := h.n0.trans h'.n0
  view := h.view.trans h'.view

/-- Acceptance changes no input of a command (R240). -/
theorem sameInputs_accept (s : State) : SameInputs s (accept s) := by
  constructor <;> intros <;> rfl

theorem sameInputs_acceptEncode (c : EncCmd) (s : State) : SameInputs s (acceptEncode c s) := by
  constructor <;> intros <;> rfl

/-- The building writes the engine's own memories and no input of a command (R48). -/
theorem sameInputs_builtHeader (s : State) :
    SameInputs s { acceptEncode .hdr s with sched := header s.visCode, phase := .project } := by
  constructor <;> intros <;> rfl

theorem sameInputs_builtImage (c : EncCmd) (fam : Family) (s : State) : SameInputs s (builtImage c fam s) := by
  cases c <;> constructor <;> intros <;> rfl

/-- Acceptance of the same inputs: they are still the same. -/
theorem SameInputs.accepted {s s' : State} (h : SameInputs s s') : SameInputs (accept s) (accept s') :=
  (sameInputs_accept s).symm.trans (h.trans (sameInputs_accept s'))

theorem SameInputs.acceptedEncode {s s' : State} (h : SameInputs s s') (c : EncCmd) :
    SameInputs (acceptEncode c s) (acceptEncode c s') :=
  (sameInputs_acceptEncode c s).symm.trans (h.trans (sameInputs_acceptEncode c s'))

theorem SameInputs.startTime_eq {s s' : State} (h : SameInputs s s') : startTime s = startTime s' := by
  rw [startTime, startTime, h.t0Hi, h.t0Lo]

/-! ### One pixel -/

/-- The colours of a pixel inside the buffer are the same (R61, R62). -/
theorem SameInputs.pixColours_eq {s s' : State} (h : SameInputs s s') {b : Nat} (hb : b + 2 < s.pixLen.toNat) :
    pixColours s.pix b = pixColours s'.pix b := by
  unfold pixColours
  rw [h.pixels b (by omega), h.pixels (b + 1) (by omega), h.pixels (b + 2) hb]

/-- A `MAP_*` of the same inputs writes the same colours' frequencies, or raises the same error (R136). -/
theorem SameInputs.mapPixel_cases {s s' t : State} (h : SameInputs s s') (w : Nat → Nat → Nat → State → State)
    (ht : mapPixel w s = .next t) :
    (∃ red green blue, t = flagsDone (w red green blue s) ∧
        mapPixel w s' = .next (flagsDone (w red green blue s'))) ∨
      (t = raiseError .inputSizeMismatch s ∧ mapPixel w s' = .next (raiseError .inputSizeMismatch s')) := by
  obtain ⟨hb, red, green, blue, hc, rfl⟩ | ⟨hb, rfl⟩ := mapPixel_next w s t ht
  · have hlt : pixBase s.hPixels.toNat s.line.toNat s.hpos.toNat + 2 < s.pixLen.toNat := by
      simp only [pixInBounds, decide_eq_true_eq] at hb
      omega
    rw [h.pixColours_eq hlt] at hc
    rw [h.pixLen, h.hPixels, h.line, h.hpos] at hb
    rw [h.hPixels, h.line, h.hpos] at hc
    exact .inl ⟨_, _, _, rfl, by rw [mapPixel, if_pos hb, hc]⟩
  · rw [h.pixLen, h.hPixels, h.line, h.hpos] at hb
    exact .inr ⟨rfl, by rw [mapPixel, if_neg (by simp [hb])]⟩

/-! ### The image -/

/-- A pixel of the image lies below the length the image needs (R61, R277). -/
theorem pixBase_lt {n w l x : Nat} (hl : l < n) (hx : x < w) : pixBase w l x + 3 < 4 * n * w := by
  have hline : (l + 1) * (w * 4) ≤ n * (w * 4) := Nat.mul_le_mul_right _ hl
  have hn : n * (w * 4) = 4 * n * w := by ring
  have hs : (l + 1) * (w * 4) = l * (w * 4) + w * 4 := by ring
  rw [pixBase]
  omega

/-- Two pixel memories with the same bytes of an image of `n` lines of `w` pixels. -/
def SameImage (n w : Nat) (m m' : List Host.Cell) : Prop := ∀ a < 4 * n * w, memRead m a = memRead m' a

/-- The same colour bytes are written. -/
theorem SameImage.imageWritten_congr {n w : Nat} {m m' : List Host.Cell} (h : SameImage n w m m') :
    imageWritten m n w = true ↔ imageWritten m' n w = true := by
  rw [imageWritten_iff, imageWritten_iff]
  refine forall₂_congr fun l hl => forall₂_congr fun x hx => forall₂_congr fun k hk => ?_
  have := pixBase_lt hl hx
  rw [h _ (by omega)]

theorem SameImage.pixByte_eq {n w : Nat} {m m' : List Host.Cell} (h : SameImage n w m m') {l x : Nat} (hl : l < n)
    (hx : x < w) {k : Nat} (hk : k < 3) : pixByte m (pixBase w l x + k) = pixByte m' (pixBase w l x + k) := by
  have := pixBase_lt hl hx
  rw [pixByte, pixByte, h _ (by omega)]

theorem SameImage.rgbTrack_eq {n w : Nat} {m m' : List Host.Cell} (h : SameImage n w m m') (num : Num) {l : Nat}
    (hl : l < n) (c : Channel) : rgbTrack num m w l c = rgbTrack num m' w l c := by
  refine List.map_congr_left fun x hx => ?_
  rw [h.pixByte_eq hl (List.mem_range.mp hx) (by cases c <;> decide)]

theorem SameImage.rawYc_eq {n w : Nat} {m m' : List Host.Cell} (h : SameImage n w m m') (num : Num)
    (value : Nat → Nat → Nat → Rat) {l x : Nat} (hl : l < n) (hx : x < w) :
    rawYc num value m w l x = rawYc num value m' w l x := by
  have h0 := h.pixByte_eq hl hx (k := 0) (by decide)
  have h1 := h.pixByte_eq hl hx (k := 1) (by decide)
  have h2 := h.pixByte_eq hl hx (k := 2) (by decide)
  rw [rawYc, rawYc, valueAt, valueAt, ← Nat.add_zero (pixBase w l x), h0]
  rw [Nat.add_zero, h1, h2]

theorem SameImage.lumaTrack_eq {n w : Nat} {m m' : List Host.Cell} (h : SameImage n w m m') (num : Num) {l : Nat}
    (hl : l < n) : lumaTrack num m w l = lumaTrack num m' w l :=
  List.map_congr_left fun _ hx => h.rawYc_eq num lumaValue hl (List.mem_range.mp hx)

/-- The two lines of a pair are both in an image of an even number of lines (R174). -/
theorem SameImage.chromaTrack_eq {n w : Nat} {m m' : List Host.Cell} (h : SameImage n w m m') (num : Num)
    (value : Nat → Nat → Nat → Rat) {l : Nat} (hl : l < n) (hn : n % 2 = 0) :
    chromaTrack num value m w l = chromaTrack num value m' w l := by
  refine List.map_congr_left fun x hx => ?_
  have hx := List.mem_range.mp hx
  rw [h.rawYc_eq num value (by omega) hx, h.rawYc_eq num value (l := 2 * (l / 2) + 1) (by omega) hx]

/-- The same image is prepared the same (R170); PD's has an even number of lines. -/
theorem SameImage.prepare_eq {n w : Nat} {m m' : List Host.Cell} (h : SameImage n w m m') (num : Num) (fam : Family)
    (hn : fam = .pd → n % 2 = 0) : prepare num fam m n w = prepare num fam m' n w := by
  refine List.map_congr_left fun l hl => ?_
  have hl := List.mem_range.mp hl
  cases fam with
  | martin => simp only [prepLine, h.rgbTrack_eq num hl]
  | scottie => simp only [prepLine, h.rgbTrack_eq num hl]
  | wrasse => simp only [prepLine, h.rgbTrack_eq num hl]
  | pd => simp only [prepLine, h.lumaTrack_eq num hl, h.chromaTrack_eq num _ hl (hn rfl)]

/-- The bytes of an image that passes the checks are inputs (R11, R277). -/
theorem SameInputs.sameImage {s s' : State} (h : SameInputs s s')
    (hl : 4 * s.numLines.toNat * s.hPixels.toNat ≤ s.pixLen.toNat) :
    SameImage s.numLines.toNat s.hPixels.toNat s.pix s'.pix := fun a ha => h.pixels a (by omega)

/-- The checks pass on the same inputs. -/
theorem SameInputs.checksPass {s s' : State} (h : SameInputs s s') {c : EncCmd} {fam : Family}
    (hp : ChecksPass c fam s) : ChecksPass c fam s' := by
  simpa only [ChecksPass, h.family, h.numLines, h.hPixels, h.tScan, h.sampleRate, h.pixLen] using hp

theorem SameInputs.encodeError_eq {s s' : State} (h : SameInputs s s') (c : EncCmd) :
    encodeError c s = encodeError c s' := by
  unfold encodeError
  rw [h.family, h.numLines, h.hPixels, h.tScan, h.sampleRate, h.pixLen]

/-- The same inputs give the same schedule (R11, R191). -/
theorem SameInputs.schedule_eq {s s' : State} (h : SameInputs s s') {c : EncCmd} {fam : Family}
    (hp : ChecksPass c fam s) : schedule fam s = schedule fam s' := by
  obtain ⟨-, -, -, -, heven, -, hlen⟩ := hp
  have hprep : prepared fam s = prepared fam s' := by
    rw [prepared, (h.sameImage hlen).prepare_eq _ fam heven, prepared, h.num, h.numLines, h.hPixels]
  rw [schedule, schedule, hprep, bodyInput, bodyInput, h.visCode, h.numLines, h.hPixels, h.tSync,
    h.tBlank, h.tScan]

/-! ### A whole command -/

/-- What the projection and the end of a command read. -/
structure SameBuilt (b b' : State) : Prop extends SameInputs b b', SameOutputs b b' where
  running : b'.running = b.running
  sched : b'.sched = b.sched
  n : b'.n = b.n
  tAcc : b'.tAcc = b.tAcc

theorem SameBuilt.synthOf_eq {b b' : State} (h : SameBuilt b b') : synthOf b' = synthOf b := by
  rw [synthOf, synthOf, h.num, h.n0, h.sampleRate]

theorem SameBuilt.pcmBuf_eq {b b' : State} (h : SameBuilt b b') : pcmBuf b' = pcmBuf b := by
  rw [pcmBuf, pcmBuf, h.outPcm, h.n]

/-- From the same schedule and registers the projection makes the same outputs (R12, R224). -/
theorem SameBuilt.sameOutputs {b b' : State} (h : SameBuilt b b') :
    SameOutputs (projectAndEnd b) (projectAndEnd b') where
  status := by rw [projectAndEnd_status, projectAndEnd_status]
  err := by rw [projectAndEnd_err, projectAndEnd_err, h.err]
  outLive := by
    rw [projectAndEnd_outLive, projectAndEnd_outLive, h.running, h.outLive, h.tAcc, h.sched, h.startTime_eq]
  outPcm := by
    rw [projectAndEnd_outPcm, projectAndEnd_outPcm, h.running, h.synthOf_eq, h.sched, h.pcmBuf_eq, h.outPcm]
  segCount := by rw [projectAndEnd_segCount, projectAndEnd_segCount, h.sched]
  sampCount := by
    rw [projectAndEnd_sampCount, projectAndEnd_sampCount, h.running, h.sampleRate, h.sched, h.sampCount]
  sampEmit := by
    rw [projectAndEnd_sampEmit, projectAndEnd_sampEmit, h.running, h.synthOf_eq, h.sched, h.pcmBuf_eq, h.sampEmit]

/-- Accepted on the same inputs, the header commands build the same (R159). -/
theorem SameInputs.sameBuilt_header {s s' : State} (h : SameInputs s s') :
    SameBuilt { acceptEncode .hdr s with sched := header s.visCode, phase := .project }
      { acceptEncode .hdr s' with sched := header s'.visCode, phase := .project } where
  toSameInputs := (sameInputs_builtHeader s).symm.trans (h.trans (sameInputs_builtHeader s'))
  toSameOutputs := ⟨rfl, rfl, rfl, rfl, rfl, rfl, rfl⟩
  running := rfl
  sched := congrArg header h.visCode.symm
  n := rfl
  tAcc := h.startTime_eq.symm

/-- Accepted on the same inputs, the image commands build the same (R11, R191, R228). -/
theorem SameInputs.sameBuilt_image {s s' : State} (h : SameInputs s s') {c : EncCmd} {fam : Family}
    (hp : ChecksPass c fam s) :
    SameBuilt (builtImage c fam (acceptEncode c s)) (builtImage c fam (acceptEncode c s')) := by
  have hsched : schedule fam s' = schedule fam s := (h.schedule_eq hp).symm
  have hbuffer : List.replicate (sampleTotal s'.sampleRate.toNat (schedule fam s')) (Amp.value 0) =
      List.replicate (sampleTotal s.sampleRate.toNat (schedule fam s)) (Amp.value 0) := by
    rw [hsched, h.sampleRate]
  have htime := h.startTime_eq.symm
  have hinputs := (sameInputs_builtImage c fam _).symm.trans
    ((h.acceptedEncode c).trans (sameInputs_builtImage c fam _))
  cases c with
  | hdr => exact ⟨hinputs, ⟨rfl, rfl, rfl, rfl, rfl, rfl, rfl⟩, rfl, hsched, rfl, htime⟩
  | live => exact ⟨hinputs, ⟨rfl, rfl, rfl, rfl, rfl, rfl, rfl⟩, rfl, hsched, rfl, htime⟩
  | pcm => exact ⟨hinputs, ⟨rfl, rfl, rfl, hbuffer, rfl, rfl, rfl⟩, rfl, hsched, rfl, htime⟩

/-- Accepted on the same inputs, an encode command raises the same error, or builds what projects to the same outputs. -/
theorem SameInputs.checkAndBuild_cases {s s' b : State} (h : SameInputs s s') (c : EncCmd)
    (hb : checkAndBuild (acceptEncode c s) = .next b) :
    (∃ e, b = raiseError e (acceptEncode c s) ∧
        checkAndBuild (acceptEncode c s') = .next (raiseError e (acceptEncode c s'))) ∨
      (b.status = .busy ∧ ∃ b', checkAndBuild (acceptEncode c s') = .next b' ∧ SameBuilt b b') := by
  have ha := h.acceptedEncode c
  obtain ⟨e, he, rfl⟩ | ⟨hr, rfl⟩ | ⟨hr, he, fam, hf, hw, rfl⟩ := checkAndBuild_next _ b hb
  · have he' : encodeError (acceptEncode c s').running (acceptEncode c s') = some e :=
      (ha.encodeError_eq c).symm.trans he
    exact .inl ⟨e, rfl, by rw [checkAndBuild, he']⟩
  · obtain rfl : c = .hdr := hr
    exact .inr ⟨rfl, _, rfl, h.sameBuilt_header⟩
  · have hp : ChecksPass c fam s := checksPass_of_encodeError hr he hf
    obtain ⟨-, -, -, -, -, -, hlen⟩ := id hp
    have himage := (h.sameImage hlen).imageWritten_congr.mp hw
    rw [h.numLines, h.hPixels] at himage
    exact .inr ⟨by cases c <;> rfl, _, checkAndBuild_of_checksPass fam _ hr (ha.checksPass hp) himage,
      h.sameBuilt_image hp⟩

/-- An encode command of the same inputs makes the same outputs, in each view (R9, R11). -/
theorem SameInputs.exec_encodeInstr {s s' t : State} (h : SameInputs s s') (c : EncCmd) (hs : s.status ≠ .busy)
    (hs' : s'.status ≠ .busy) (ht : exec (encodeInstr c) s = .next t) :
    ∃ t', exec (encodeInstr c) s' = .next t' ∧ SameOutputs t t' := by
  by_cases hv : s.view = .atomic
  · have hv' : s'.view = .atomic := h.view ▸ hv
    rw [exec_encodeInstr_atomic c s hs hv, andThen_next] at ht
    obtain ⟨b, hb, ht⟩ := ht
    rw [exec_encodeInstr_atomic c s' hs' hv']
    obtain ⟨e, rfl, hb'⟩ | ⟨hbusy, b', hb', hsame⟩ := h.checkAndBuild_cases c hb
    · obtain rfl : _ = t := Host.Outcome.next.inj ht
      exact ⟨_, by rw [hb']; rfl, sameOutputs_raiseError e _ _⟩
    · rw [projectIfBusy, if_pos hbusy] at ht
      obtain rfl : _ = t := Host.Outcome.next.inj ht
      have hbusy' : b'.status = .busy := hsame.status.trans hbusy
      exact ⟨projectAndEnd b', by rw [hb']; exact if_pos hbusy', hsame.sameOutputs⟩
  · have hv' : s'.view ≠ .atomic := h.view ▸ hv
    rw [exec_encodeInstr_stepwise c s hs hv] at ht
    obtain rfl : _ = t := Host.Outcome.next.inj ht
    exact ⟨_, exec_encodeInstr_stepwise c s' hs' hv', ⟨rfl, rfl, rfl, rfl, rfl, rfl, rfl⟩⟩

/-- A `MAP_*` whose writes `w` leave the outputs alone makes the same outputs of the same inputs, and where it succeeds
it has written from the same colours (R11, R136). -/
theorem SameInputs.runCommand_mapPixel {s s' t : State} (h : SameInputs s s') (w : Nat → Nat → Nat → State → State)
    (hw : ∀ red green blue,
      SameOutputs (flagsDone (w red green blue (accept s))) (flagsDone (w red green blue (accept s'))))
    (hs : s.status ≠ .busy) (hs' : s'.status ≠ .busy) (ht : runCommand (mapPixel w) s = .next t) :
    ∃ t', runCommand (mapPixel w) s' = .next t' ∧ SameOutputs t t' ∧
      (t.status = .done → ∃ red green blue, t = flagsDone (w red green blue (accept s)) ∧
        t' = flagsDone (w red green blue (accept s'))) := by
  rw [runCommand_accepted _ s hs] at ht
  rw [runCommand_accepted _ s' hs']
  obtain ⟨red, green, blue, rfl, ht'⟩ | ⟨rfl, ht'⟩ := h.accepted.mapPixel_cases w ht
  · exact ⟨_, ht', hw red green blue, fun _ => ⟨red, green, blue, rfl, rfl⟩⟩
  · exact ⟨_, ht', sameOutputs_raiseError _ _ _, nofun⟩

/-- The frequency registers a successful `MAP_*` writes are the same after both (R38). -/
structure SameFreqs (i : Instr) (t t' : State) : Prop where
  freq0 : i = .mapGrey ∨ i = .mapRgb ∨ i = .mapYc → t.status = .done → t'.freq0 = t.freq0
  freq12 : i = .mapRgb ∨ i = .mapYc → t.status = .done → t'.freq1 = t.freq1 ∧ t'.freq2 = t.freq2

/-- Of a command that is no `MAP_*` nothing is asked (R38). -/
theorem sameFreqs_of_not_map {i : Instr} (t t' : State) (hg : i ≠ .mapGrey) (hr : i ≠ .mapRgb) (hy : i ≠ .mapYc) :
    SameFreqs i t t' := ⟨by simp [hg, hr, hy], by simp [hr, hy]⟩

/-- On the same inputs a command makes the same outputs and the same frequencies: `CLEAR` reads nothing, a `MAP_*` its
pixel and `NUM`, an encode command what it builds. -/
theorem SameInputs.exec_command {s s' t : State} (h : SameInputs s s') {i : Instr} (hi : isCommand i)
    (hs : s.status ≠ .busy) (hs' : s'.status ≠ .busy) (ht : exec i s = .next t) :
    ∃ t', exec i s' = .next t' ∧ SameOutputs t t' ∧ SameFreqs i t t' := by
  have hnum : (accept s').params.num = (accept s).params.num := h.num.symm
  have hencode (c : EncCmd) (hc : exec (encodeInstr c) s = .next t) :
      ∃ t', exec (encodeInstr c) s' = .next t' ∧ SameOutputs t t' ∧ SameFreqs (encodeInstr c) t t' := by
    obtain ⟨t', ht', ho⟩ := h.exec_encodeInstr c hs hs' hc
    exact ⟨t', ht', ho, by cases c <;> exact sameFreqs_of_not_map t t' nofun nofun nofun⟩
  rcases hi with rfl | rfl | rfl | rfl | rfl | rfl | rfl
  · have hclear (x : State) (hx : x.status ≠ .busy) : exec .clear x = .next (flagsIdle (accept x)) :=
      runCommand_accepted (fun a => .next (flagsIdle a)) x hx
    rw [hclear s hs] at ht
    obtain rfl : _ = t := Host.Outcome.next.inj ht
    exact ⟨_, hclear s' hs', ⟨rfl, rfl, rfl, rfl, rfl, rfl, rfl⟩, sameFreqs_of_not_map _ _ nofun nofun nofun⟩
  · obtain ⟨t', ht', ho, hdone⟩ :=
      h.runCommand_mapPixel writeGrey (fun _ _ _ => ⟨rfl, rfl, rfl, rfl, rfl, rfl, rfl⟩) hs hs' ht
    refine ⟨t', ht', ho, fun _ hd => ?_, by simp⟩
    obtain ⟨red, green, blue, rfl, rfl⟩ := hdone hd
    simp only [writeGrey, flagsDone_freq0, hnum]
  · obtain ⟨t', ht', ho, hdone⟩ :=
      h.runCommand_mapPixel writeRgb (fun _ _ _ => ⟨rfl, rfl, rfl, rfl, rfl, rfl, rfl⟩) hs hs' ht
    refine ⟨t', ht', ho, fun _ hd => ?_, fun _ hd => ?_⟩ <;> obtain ⟨red, green, blue, rfl, rfl⟩ := hdone hd
    · simp only [writeRgb, flagsDone_freq0, hnum]
    · simp only [writeRgb, flagsDone_freq1, flagsDone_freq2, hnum, and_self]
  · obtain ⟨t', ht', ho, hdone⟩ :=
      h.runCommand_mapPixel writeYc (fun _ _ _ => ⟨rfl, rfl, rfl, rfl, rfl, rfl, rfl⟩) hs hs' ht
    refine ⟨t', ht', ho, fun _ hd => ?_, fun _ hd => ?_⟩ <;> obtain ⟨red, green, blue, rfl, rfl⟩ := hdone hd
    · simp only [writeYc, flagsDone_freq0, hnum]
    · simp only [writeYc, flagsDone_freq1, flagsDone_freq2, hnum, and_self]
  · exact hencode .hdr ht
  · exact hencode .live ht
  · exact hencode .pcm ht

/-- Settles O57: the outputs and the frequencies of every command follow its inputs. -/
theorem outputDependsOnInputsAlone : Obligations.OutputDependsOnInputsAlone := by
  intro s s' t i hi h hs hs' ht
  obtain ⟨t', ht', ho, hf⟩ := h.exec_command hi hs hs' ht
  exact ⟨t', ht', ho.status, ho.err, ho.outLive, ho.outPcm, ho.segCount, ho.sampCount, ho.sampEmit, hf.freq0, hf.freq12⟩

end Sys2Proof.Claims

namespace Sys2Proof.Machine

open Sys2Proof.Claims

/-! ## What the engine may write (R48) -/

/-- `t` is `s` but for what the engine owns: `FREQ0..2`, its outputs, counters, status, sequencer and memories. -/
def OnlyEngine (s t : State) : Prop :=
  OnlyOutputs { s with freq0 := t.freq0, freq1 := t.freq1, freq2 := t.freq2 } t

theorem onlyEngine_of_onlyOutputs {s t : State} (h : OnlyOutputs s t) : OnlyEngine s t := by
  rw [h]; rfl

theorem onlyOutputs_trans {s t u : State} (h : OnlyOutputs s t) (h' : OnlyOutputs t u) : OnlyOutputs s u := by
  rw [h', h]

theorem onlyOutputs_accept (s : State) : OnlyOutputs s (accept s) := rfl

theorem onlyOutputs_finish (s : State) : OnlyOutputs s (finish s) := by
  rw [finish, endCommand, setCounts_eq]
  split <;> rfl

/-- At once or a turn at a time, a projection and its end keep to the outputs. -/
theorem onlyOutputs_projectAndEnd (s : State) : OnlyOutputs s (projectAndEnd s) := by
  by_cases hr : s.running = .pcm
  · rw [projectAndEnd_of_pcm hr]
    exact onlyOutputs_trans (t := projectPcm s) rfl (onlyOutputs_finish _)
  · rw [projectAndEnd_of_live hr]
    exact onlyOutputs_trans (t := projectLive s) rfl (onlyOutputs_finish _)

theorem onlyOutputs_checkAndBuild {s t : State} (h : checkAndBuild s = .next t) : OnlyOutputs s t := by
  obtain ⟨e, rfl⟩ | ⟨hb, -, -⟩ := checkAndBuild_schedInv s t h
  · rfl
  · rw [hb]

/-- Where `runSegment` goes: to the live walk, or to the sample walk by segments or by samples (R198, R228, R232). -/
theorem runSegment_cases (seg : Segment) (s : State) :
    (s.running ≠ .pcm ∧ runSegment seg s = runLive seg s) ∨
      (s.running = .pcm ∧ s.view ≠ .sample ∧ runSegment seg s = runPcmSegment seg s) ∨
      (s.running = .pcm ∧ s.view = .sample ∧ runSegment seg s = runPcmSample seg s) := by
  cases hr : s.running <;> cases hv : s.view <;> simp [runSegment, hr, hv]

/-- One step of the sample walk skips the segment, or writes one sample and advances (R232). -/
theorem runPcmSample_cases (seg : Segment) (s : State) :
    ((segSamples s.sampleRate.toNat seg = 0 ∨ (segFreqs seg).length ≤ s.sub) ∧ runPcmSample seg s = nextSegment s) ∨
      (segSamples s.sampleRate.toNat seg ≠ 0 ∧ s.sub < (segFreqs seg).length ∧ ∃ f,
        runPcmSample seg s = advanceSample seg (withPcm (renderOne (synthOf s) f (pcmBuf s)) s)) := by
  unfold runPcmSample
  split
  · exact .inl ⟨.inl ‹_›, rfl⟩
  · split
    · exact .inl ⟨.inr (List.getElem?_eq_none_iff.mp ‹_›), rfl⟩
    · rename_i hf
      obtain ⟨hlt, -⟩ := List.getElem?_eq_some_iff.mp hf
      exact .inr ⟨‹_›, hlt, _, rfl⟩

/-- Advancing moves the sequencer alone (R232). -/
theorem advanceSample_frame (seg : Segment) (s : State) :
    advanceSample seg s =
      { s with
        segPtr := (advanceSample seg s).segPtr, sub := (advanceSample seg s).sub, j := (advanceSample seg s).j } := by
  unfold advanceSample
  split
  · rfl
  · split <;> rfl

/-- One step of the sample walk writes a sample at most, and moves the sequencer (R232). -/
theorem runPcmSample_frame (seg : Segment) (s : State) :
    runPcmSample seg s =
      { s with
        outPcm := (runPcmSample seg s).outPcm, n := (runPcmSample seg s).n, segPtr := (runPcmSample seg s).segPtr,
        sub := (runPcmSample seg s).sub, j := (runPcmSample seg s).j } := by
  obtain ⟨-, h⟩ | ⟨-, -, f, h⟩ := runPcmSample_cases seg s
  · rw [h]; rfl
  · rw [h, advanceSample_frame]
    rfl

/-- A segment of a live command writes records and `T_ACC`, one of `ENC_PCM` samples and `N`; both move the sequencer,
and nothing else changes (R198, R222, R232). -/
theorem runSegment_frame (seg : Segment) (s : State) :
    (s.running ≠ .pcm ∧ runSegment seg s =
        { s with
          outLive := (runSegment seg s).outLive, tAcc := (runSegment seg s).tAcc,
          segPtr := (runSegment seg s).segPtr, sub := (runSegment seg s).sub, j := (runSegment seg s).j }) ∨
      (s.running = .pcm ∧ runSegment seg s =
        { s with
          outPcm := (runSegment seg s).outPcm, n := (runSegment seg s).n,
          segPtr := (runSegment seg s).segPtr, sub := (runSegment seg s).sub, j := (runSegment seg s).j }) := by
  obtain ⟨hr, h⟩ | ⟨hr, -, h⟩ | ⟨hr, -, h⟩ := runSegment_cases seg s
  · exact .inl ⟨hr, by rw [h]; rfl⟩
  · exact .inr ⟨hr, by rw [h]; rfl⟩
  · exact .inr ⟨hr, by rw [h, ← runPcmSample_frame]⟩

theorem onlyOutputs_runSegment (seg : Segment) (s : State) : OnlyOutputs s (runSegment seg s) := by
  obtain ⟨-, h⟩ | ⟨-, h⟩ := runSegment_frame seg s <;> rw [h]

/-! ## What each instruction changes -/

/-- The engine runs a segment as the instruction it is (R95). -/
theorem exec_segmentInstr (seg : Segment) (s : State) : exec (segmentInstr seg) s = .next (runSegment seg s) := by
  cases seg <;> rfl

/-- An encode command keeps to its outputs and the engine's memories (R48). -/
theorem onlyOutputs_encodeBody {c : EncCmd} {s t : State} (h : encodeBody c s = .next t) : OnlyOutputs s t := by
  obtain ⟨-, b, hb, ht⟩ | ⟨-, rfl⟩ := encodeBody_next c s t h
  · have hsb : OnlyOutputs s b := onlyOutputs_trans (t := { s with running := c, phase := .checks }) rfl
      (onlyOutputs_checkAndBuild hb)
    obtain ⟨-, rfl⟩ | ⟨-, rfl⟩ := ht
    · exact onlyOutputs_trans hsb (onlyOutputs_projectAndEnd b)
    · exact hsb
  · rfl

/-- A command keeps to its outputs where its body does. -/
theorem onlyOutputs_runCommand {f : State → Host.Outcome State Fault Refusal} {s t : State}
    (hf : f (accept s) = .next t → OnlyOutputs (accept s) t) (h : runCommand f s = .next t) : OnlyOutputs s t := by
  obtain ⟨-, rfl⟩ | ⟨-, h⟩ := (runCommand_next f s t).mp h
  · rfl
  · exact onlyOutputs_trans (onlyOutputs_accept s) (hf h)

/-- The commands that write `FREQ0..2` (R38). -/
abbrev isMap (i : Instr) : Prop := i = .mapGrey ∨ i = .mapRgb ∨ i = .mapYc

/-- An instruction other than `MAP_*` writes outputs, counters, status, sequencer and the engine's memories alone
(R38, R48). -/
theorem onlyOutputs_exec {i : Instr} (hi : ¬ isMap i) {s t : State} (h : exec i s = .next t) : OnlyOutputs s t := by
  cases i with
  | clear => exact onlyOutputs_runCommand (f := fun a => .next (flagsIdle a)) (fun h => by cases h; rfl) h
  | mapGrey => simp at hi
  | mapRgb => simp at hi
  | mapYc => simp at hi
  | encHdr => exact onlyOutputs_runCommand onlyOutputs_encodeBody h
  | encLive => exact onlyOutputs_runCommand onlyOutputs_encodeBody h
  | encPcm => exact onlyOutputs_runCommand onlyOutputs_encodeBody h
  | hold f d => cases h; exact onlyOutputs_runSegment _ s
  | curve fs d => cases h; exact onlyOutputs_runSegment _ s
  | set f t => cases h; rfl
  | curveAt fs t d => cases h; rfl
  | span start stop => cases h; rfl

/-- What a `MAP_*` command can do: nothing while `BUSY`; fail and leave `FREQ0..2`; or write them and nothing else that
acceptance and success do not (R38, R136, R240). -/
theorem exec_map_cases {i : Instr} (hi : isMap i) {s t : State} (h : exec i s = .next t) :
    (s.status = .busy ∧ t = s) ∨
      (s.status ≠ .busy ∧ t = raiseError .inputSizeMismatch (accept s)) ∨
      (s.status ≠ .busy ∧ ∃ f0 f1 f2, (i = .mapGrey → f1 = s.freq1 ∧ f2 = s.freq2) ∧
        t = flagsDone { accept s with freq0 := f0, freq1 := f1, freq2 := f2 }) := by
  have hpixel (w : Nat → Nat → Nat → State → State) (h : runCommand (mapPixel w) s = .next t) :
      (s.status = .busy ∧ t = s) ∨
        (s.status ≠ .busy ∧ t = raiseError .inputSizeMismatch (accept s)) ∨
        (s.status ≠ .busy ∧ ∃ red green blue, t = flagsDone (w red green blue (accept s))) := by
    obtain h | ⟨hs, h⟩ := (runCommand_next _ s t).mp h
    · exact .inl h
    · obtain ⟨-, red, green, blue, -, rfl⟩ | ⟨-, rfl⟩ := mapPixel_next w _ t h
      · exact .inr (.inr ⟨hs, _, _, _, rfl⟩)
      · exact .inr (.inl ⟨hs, rfl⟩)
  obtain rfl | rfl | rfl := hi
  · obtain h | h | ⟨hs, red, green, blue, rfl⟩ := hpixel writeGrey h
    · exact .inl h
    · exact .inr (.inl h)
    · exact .inr (.inr ⟨hs, _, _, _, fun _ => ⟨rfl, rfl⟩, rfl⟩)
  · obtain h | h | ⟨hs, red, green, blue, rfl⟩ := hpixel writeRgb h
    · exact .inl h
    · exact .inr (.inl h)
    · exact .inr (.inr ⟨hs, _, _, _, nofun, rfl⟩)
  · obtain h | h | ⟨hs, red, green, blue, rfl⟩ := hpixel writeYc h
    · exact .inl h
    · exact .inr (.inl h)
    · exact .inr (.inr ⟨hs, _, _, _, nofun, rfl⟩)

/-- Every instruction keeps to what the engine owns (R48). -/
theorem onlyEngine_exec {i : Instr} {s t : State} (h : exec i s = .next t) : OnlyEngine s t := by
  by_cases hi : isMap i
  · obtain ⟨-, rfl⟩ | ⟨-, rfl⟩ | ⟨-, f0, f1, f2, -, rfl⟩ := exec_map_cases hi h <;> rfl
  · exact onlyEngine_of_onlyOutputs (onlyOutputs_exec hi h)

/-- Settles O32: every field of the host's is `s`'s in a state that differs in the engine's fields alone. -/
theorem noInstructionWritesHostState : Obligations.NoInstructionWritesHostState := by
  intro i s t h
  rw [show t = _ from onlyEngine_exec h]
  exact ⟨rfl, rfl, rfl, rfl, rfl, rfl, rfl, rfl, rfl, rfl, rfl, rfl, rfl, fun _ => rfl, rfl, rfl, rfl, rfl, rfl, rfl⟩

/-- Settles O33: the cases of a `MAP_*`, and the frame of every other instruction. -/
theorem freqWrittenOnlyByMap : Obligations.FreqWrittenOnlyByMap := by
  intro i s t h
  have hother (hi : ¬ isMap i) : t.freq0 = s.freq0 ∧ t.freq1 = s.freq1 ∧ t.freq2 = s.freq2 := by
    rw [show t = _ from onlyOutputs_exec hi h]
    exact ⟨rfl, rfl, rfl⟩
  refine ⟨fun hg hr hy => hother (by simp [hg, hr, hy]), ?_⟩
  by_cases hi : isMap i
  · obtain ⟨hs, rfl⟩ | ⟨-, rfl⟩ | ⟨-, f0, f1, f2, hgrey, rfl⟩ := exec_map_cases hi h
    · exact ⟨fun _ => ⟨rfl, rfl⟩, fun _ => ⟨rfl, rfl, rfl⟩, fun _ hn => absurd hs hn⟩
    · exact ⟨fun _ => ⟨rfl, rfl⟩, fun _ => ⟨rfl, rfl, rfl⟩, fun _ _ => rfl⟩
    · exact ⟨hgrey, nofun, fun _ _ => rfl⟩
  · obtain ⟨h0, h1, h2⟩ := hother hi
    exact ⟨fun _ => ⟨h1, h2⟩, fun _ => ⟨h0, h1, h2⟩, fun hm => absurd hm hi⟩

end Sys2Proof.Machine

namespace Sys2Proof.Machine

open Sys2Proof.Claims

/-! ## How long a schedule is -/

theorem totalDuration_append (xs ys : List Segment) :
    totalDuration (xs ++ ys) = totalDuration xs + totalDuration ys := by
  simp [totalDuration]

/-- A header has 21 segments and lasts 1.71 s (R157). -/
theorem header_length (v : BitVec 7) : (header v).length = 21 := rfl

theorem header_totalDuration (v : BitVec 7) : totalDuration (header v) = 1710000000 := by
  have hall : (header v).map segDuration = (header 0).map segDuration := rfl
  rw [totalDuration, hall]
  decide

/-- A body has at most eight segments a line, and one before them (R192 to R195). -/
theorem body_length_le (fam : Family) (b : BodyInput) : (body fam b).length ≤ 8 * b.lines + 1 := by
  cases fam with
  | martin => simp [body, martinLine, List.length_flatMap]; omega
  | scottie => simp [body, scottieLine, List.length_flatMap]; omega
  | pd => simp [body, pdPair, List.length_flatMap]; omega
  | wrasse => simp [body, wrasseLine, List.length_flatMap]; omega

/-- A segment of a body lasts as long as one of the three 32-bit durations (R24 to R26). -/
theorem segDuration_body_le (fam : Family) (s : State) (prep : List (List (List Freq))) :
    ∀ seg ∈ body fam (bodyInput s prep), segDuration seg ≤ 2 ^ 32 := by
  intro seg h
  cases bodySegment_of_mem_body fam _ seg h with
  | sync => exact s.tSync.isLt.le
  | blank => exact s.tBlank.isLt.le
  | scan l t => exact s.tScan.isLt.le

/-- A schedule has at most 524302 segments (R35). -/
theorem schedule_length_le (fam : Family) (s : State) : (schedule fam s).length ≤ 524302 := by
  have hbody := body_length_le fam (bodyInput s (prepared fam s))
  have hlines : (bodyInput s (prepared fam s)).lines < 2 ^ 16 := s.numLines.isLt
  rw [schedule, List.length_append, header_length]
  omega

/-- A schedule is shorter than 2^52 ns (R36). -/
theorem schedule_totalDuration_lt (fam : Family) (s : State) : totalDuration (schedule fam s) < 2 ^ 52 := by
  have hbody := body_length_le fam (bodyInput s (prepared fam s))
  have hlines : (bodyInput s (prepared fam s)).lines < 2 ^ 16 := s.numLines.isLt
  have htotal : totalDuration (body fam (bodyInput s (prepared fam s)))
      ≤ (body fam (bodyInput s (prepared fam s))).length * 2 ^ 32 := by
    have := List.sum_le_card_nsmul ((body fam (bodyInput s (prepared fam s))).map segDuration) (2 ^ 32)
      (by simpa using segDuration_body_le fam s (prepared fam s))
    simpa [totalDuration] using this
  rw [schedule, totalDuration_append, header_totalDuration]
  exact (Nat.add_le_add_left htotal _).trans_lt (by omega)

/-- Samples last no longer than the schedule: the sample counts fit 64 bits (R36). -/
theorem sampleTotal_lt {rate : Word} {sched : List Segment} (h : totalDuration sched < 2 ^ 52) :
    sampleTotal rate.toNat sched < 2 ^ 64 := by
  have hmul : totalDuration sched * rate.toNat ≤ 2 ^ 52 * 2 ^ 32 := Nat.mul_le_mul h.le rate.isLt.le
  calc sampleTotal rate.toNat sched ≤ 2 ^ 52 * 2 ^ 32 / nsPerSecond := Nat.div_le_div_right hmul
    _ < 2 ^ 64 := by decide

/-! ## What the building of a schedule leaves -/

/-- The checks raise one of the three errors, never none (R277). -/
theorem encodeError_ne_none {c : EncCmd} {s : State} {e : ErrCode} (h : encodeError c s = some e) : e ≠ .none := by
  unfold encodeError at h
  grind

/-- `ENC_PCM` alone allocates a buffer (R159, R199, R228). -/
theorem allocatePcm_eq (c : EncCmd) (s : State) :
    allocatePcm c s =
      { s with outPcm :=
          if c = .pcm then List.replicate (sampleTotal s.sampleRate.toNat s.sched) (.value 0) else s.outPcm } := by
  cases c <;> rfl

/-- `b` is `s` with its schedule built: `SCHED` well-formed and in the bounds of R35 and R36, and for `ENC_PCM` a buffer
of zeros of the length of R221 (R159, R199, R228). -/
structure Built (s b : State) : Prop where
  frame : b = { s with prep := b.prep, sched := b.sched, outPcm := b.outPcm, phase := .project }
  wellFormed : b.SchedInv
  length_le : b.sched.length ≤ 524302
  duration_lt : totalDuration b.sched < 2 ^ 52
  outPcm : b.outPcm =
    if s.running = .pcm then List.replicate (sampleTotal b.sampleRate.toNat b.sched) (.value 0) else s.outPcm

/-- The checks and the building raise an error, or leave the schedule built (R277). -/
theorem checkAndBuild_cases {s b : State} (h : checkAndBuild s = .next b) :
    (∃ e, e ≠ .none ∧ b = raiseError e s) ∨ Built s b := by
  obtain ⟨e, he, rfl⟩ | ⟨hr, rfl⟩ | ⟨hr, he, fam, -, -, rfl⟩ := checkAndBuild_next s b h
  · exact .inl ⟨e, encodeError_ne_none he, rfl⟩
  · exact .inr ⟨rfl, header_wellFormed _, by rw [header_length]; decide, by rw [header_totalDuration]; decide,
      by simp [hr]⟩
  · obtain ⟨-, -, -, hw, -⟩ := (encodeError_eq_none_iff _ s hr).mp he
    rw [allocatePcm_eq]
    exact .inr ⟨rfl, schedule_wellFormed fam s hw, schedule_length_le fam s, schedule_totalDuration_lt fam s, rfl⟩

/-! ## What a command leaves -/

/-- A word that decodes to an instruction decodes to a command (R92). -/
theorem isCommand_of_decodeCommand {w : Word} {i : Instr} (h : decodeCommand w = some i) : isCommand i := by
  unfold decodeCommand at h
  split at h <;> cases h <;> simp [isCommand]

/-- What a command of a block that is not busy leaves in one step. -/
inductive CommandTo (s : State) : State → Prop where
  /-- `CLEAR` (R241). -/
  | cleared : CommandTo s (flagsIdle (accept s))
  /-- A `MAP_*` that succeeds (R136). -/
  | mapped (f0 f1 f2 : FreqReg) : CommandTo s (flagsDone { accept s with freq0 := f0, freq1 := f1, freq2 := f2 })
  /-- A command that fails, whether or not an encode command (R242, R274, R277). -/
  | failed (e : ErrCode) (c : EncCmd) (p : Phase) (he : e ≠ .none) :
      CommandTo s (raiseError e { accept s with running := c, phase := p })
  /-- An encode command in a stepwise view (R9, R280). -/
  | started (c : EncCmd) : CommandTo s (acceptEncode c s)
  /-- An encode command that succeeds at once (R9). -/
  | encoded (c : EncCmd) (b : State) (hb : Built (acceptEncode c s) b) : CommandTo s (projectAndEnd b)

theorem encode_commandTo {c : EncCmd} {s t : State} (hs : s.status ≠ .busy) (h : exec (encodeInstr c) s = .next t) :
    CommandTo s t := by
  by_cases hv : s.view = .atomic
  · rw [exec_encodeInstr_atomic c s hs hv, andThen_next] at h
    obtain ⟨b, hb, ht⟩ := h
    obtain ⟨e, he, rfl⟩ | hbuilt := checkAndBuild_cases hb
    · obtain rfl : _ = t := Host.Outcome.next.inj ht
      exact .failed e c .checks he
    · have hbusy : b.status = .busy := by rw [hbuilt.frame]; rfl
      rw [projectIfBusy, if_pos hbusy] at ht
      obtain rfl : _ = t := Host.Outcome.next.inj ht
      exact .encoded c b hbuilt
  · rw [exec_encodeInstr_stepwise c s hs hv] at h
    obtain rfl : _ = t := Host.Outcome.next.inj h
    exact .started c

/-- A command of a block that is not busy leaves one of these. -/
theorem exec_commandTo {i : Instr} {s t : State} (hi : isCommand i) (hs : s.status ≠ .busy) (h : exec i s = .next t) :
    CommandTo s t := by
  have hmap (hm : isMap i) : CommandTo s t := by
    obtain ⟨hb, -⟩ | ⟨-, rfl⟩ | ⟨-, f0, f1, f2, -, rfl⟩ := exec_map_cases hm h
    · exact absurd hb hs
    · exact .failed .inputSizeMismatch s.running s.phase nofun
    · exact .mapped f0 f1 f2
  rcases hi with rfl | rfl | rfl | rfl | rfl | rfl | rfl
  · rw [show exec .clear s = .next (flagsIdle (accept s)) from
      runCommand_accepted (fun a => .next (flagsIdle a)) s hs] at h
    obtain rfl : _ = t := Host.Outcome.next.inj h
    exact .cleared
  · exact hmap (by simp [isMap])
  · exact hmap (by simp [isMap])
  · exact hmap (by simp [isMap])
  · exact encode_commandTo (c := .hdr) hs h
  · exact encode_commandTo (c := .live) hs h
  · exact encode_commandTo (c := .pcm) hs h

/-! ## What a step leaves -/

/-- A register write stores in the host's registers alone (R243). -/
theorem writeReg_frame (r : Reg) (v : Word) (s : State) :
    writeReg r v s =
      { s with
        family := (writeReg r v s).family, numLines := (writeReg r v s).numLines, hPixels := (writeReg r v s).hPixels,
        tBlank := (writeReg r v s).tBlank, tScan := (writeReg r v s).tScan, tSync := (writeReg r v s).tSync,
        visCode := (writeReg r v s).visCode, sampleRate := (writeReg r v s).sampleRate, t0Lo := (writeReg r v s).t0Lo,
        t0Hi := (writeReg r v s).t0Hi, pixLen := (writeReg r v s).pixLen, line := (writeReg r v s).line,
        hpos := (writeReg r v s).hpos } := by
  cases r <;> rfl

/-- `t` is `s` but for what the host writes of a block that is not busy, and for what its reads return (R51, R306). -/
structure HostAccess (s t : State) : Prop where
  frame : t = { s with
    family := t.family, numLines := t.numLines, hPixels := t.hPixels, tBlank := t.tBlank, tScan := t.tScan,
    tSync := t.tSync, visCode := t.visCode, sampleRate := t.sampleRate, t0Lo := t.t0Lo, t0Hi := t.t0Hi,
    pixLen := t.pixLen, line := t.line, hpos := t.hpos, pix := t.pix, hostData := t.hostData, readFault := t.readFault }
  busy : s.status = .busy → t = { s with hostData := t.hostData, readFault := t.readFault }

/-- What a step does to what the engine owns: `StepTo` with the host's accesses taken together, and with each command
and each turn of the engine replaced by what it leaves. -/
inductive EngineTo (s : State) : State → Prop where
  | access (t : State) (h : HostAccess s t) : EngineTo s t
  | reset : EngineTo s (resetBlock s)
  | command (t : State) (hs : s.status ≠ .busy) (h : CommandTo s t) : EngineTo s t
  | failed (e : ErrCode) (he : e ≠ .none) : EngineTo s (raiseError e s)
  | built (b : State) (hs : s.status = .busy) (hp : s.phase = .checks) (hb : Built s b) : EngineTo s b
  | segment (seg : Segment) (hs : s.status = .busy) (hp : s.phase = .project) (hseg : s.sched[s.segPtr]? = some seg)
      (hwf : (segmentInstr seg).WellFormed) : EngineTo s (runSegment seg s)
  | finish (hs : s.status = .busy) (hp : s.phase = .project) (hseg : s.sched[s.segPtr]? = none) : EngineTo s (finish s)

/-- A step does one of these, on the state with the host's list as the step leaves it. -/
theorem step_engineTo {s t : State} (h : step s = .next t) : ∃ host, EngineTo { s with host := host } t := by
  obtain ⟨host, hstep⟩ := step_stepTo s t h
  refine ⟨host, ?_⟩
  generalize { s with host := host } = u at hstep
  cases hstep with
  | same => exact .access _ ⟨rfl, fun _ => rfl⟩
  | readWord offset width => exact .access _ ⟨rfl, fun _ => rfl⟩
  | readOutput d => exact .access _ ⟨rfl, fun _ => rfl⟩
  | pixels addr bytes hs => exact .access _ ⟨by rw [pixWriteBytes_frame], fun hb => absurd hb hs⟩
  | register r v hs => exact .access _ ⟨by rw [writeReg_frame], fun hb => absurd hb hs⟩
  | command i _ w hs hw hi => exact .command _ hs (exec_commandTo (isCommand_of_decodeCommand hw) hs hi)
  | reserved hs => exact .command _ hs (.failed .unsupportedFormatOperation u.running u.phase nofun)
  | reset => exact .reset
  | checks _ hs hp hc =>
    obtain ⟨e, he, rfl⟩ | hb := checkAndBuild_cases hc
    · exact .failed e he
    · exact .built _ hs hp hb
  | segment seg hs hp hseg hwf => exact .segment seg hs hp hseg hwf
  | finish hs hp hseg => exact .finish hs hp hseg

end Sys2Proof.Machine

namespace Sys2Proof.Machine

open Sys2Proof.Claims

/-! ## The status, the counters and the outputs (O46) -/

/-- The end of a command writes the counters, `DONE` and a live command's closing `SPAN` (R200, R226). -/
theorem finish_eq (s : State) :
    finish s =
      { s with
        status := .done
        segCount := BitVec.ofNat 32 s.sched.length
        sampCount :=
          if s.running = .pcm then BitVec.ofNat 64 (sampleTotal s.sampleRate.toNat s.sched) else s.sampCount
        sampEmit := if s.running = .pcm then BitVec.ofNat 64 s.n else s.sampEmit
        outLive := if s.running = .pcm then s.outLive else s.outLive ++ [.span (startTime s) s.tAcc] } := by
  by_cases hr : s.running = .pcm <;> simp [finish, endCommand, setCounts_eq, hr, flagsDone, emitLive]

/-- After a success the status says only that there is no error, and one of the outputs is empty (R50). -/
theorem statusInv_of_done {t : State} (hs : t.status = .done) (he : t.err = .none)
    (ho : t.outLive = [] ∨ t.outPcm = []) : t.StatusInv := by
  simp [State.StatusInv, hs, he, ho]

/-- With no output and no count the status says no more than the error code (R33, R274). -/
theorem statusInv_of_empty {t : State} (he : t.err ≠ .none ↔ t.status = .error) (ho : t.OutputsEmpty)
    (hc : t.CountersZero) : t.StatusInv :=
  ⟨he, fun _ => ⟨ho, hc⟩, fun _ => hc, fun _ _ => ho, fun _ _ => ho.1, fun _ _ => ho.2, .inl ho.1⟩

/-- While a command projects, its own output alone is filled (R159, R199, R228). -/
theorem statusInv_of_project {t : State} (hs : t.status = .busy) (hp : t.phase = .project) (he : t.err = .none)
    (hc : t.CountersZero) (hpcm : t.running = .pcm → t.outLive = []) (hlive : t.running ≠ .pcm → t.outPcm = []) :
    t.StatusInv :=
  ⟨by simp [he, hs], by simp [hs], fun _ => hc, fun _ h => absurd (hp.symm.trans h) nofun, fun _ => hpcm, fun _ => hlive,
    (em (t.running = .pcm)).imp hpcm hlive⟩

theorem statusInv_raiseError {e : ErrCode} (he : e ≠ .none) (s : State) : (raiseError e s).StatusInv :=
  statusInv_of_empty (by simp [he]) ⟨rfl, rfl⟩ ⟨rfl, rfl, rfl⟩

/-- An accepted command has empty outputs and zero counters (R240). -/
theorem statusInv_acceptEncode (c : EncCmd) (s : State) : (acceptEncode c s).StatusInv :=
  statusInv_of_empty (by simp [acceptEncode]) ⟨rfl, rfl⟩ ⟨rfl, rfl, rfl⟩

theorem statusInv_resetWith (p : Params) : (State.resetWith p).StatusInv :=
  statusInv_of_empty ⟨fun h => absurd rfl h, nofun⟩ ⟨rfl, rfl⟩ ⟨rfl, rfl, rfl⟩

/-- While a command runs there is no error (R34, R240). -/
theorem err_of_busy {s : State} (hs : s.StatusInv) (hbusy : s.status = .busy) : s.err = .none := by
  obtain ⟨herr, -⟩ := hs
  simpa [hbusy] using herr

/-- A command that projects at once fills one of the outputs (R12). -/
theorem statusInv_projectAndEnd {b : State} (hb : b.StatusInv) (hbusy : b.status = .busy) :
    (projectAndEnd b).StatusInv := by
  refine statusInv_of_done (projectAndEnd_status b) ((projectAndEnd_err b).trans (err_of_busy hb hbusy)) ?_
  obtain ⟨-, -, -, -, hpcm, hlive, -⟩ := hb
  by_cases hr : b.running = .pcm
  · exact .inl (by rw [projectAndEnd_outLive, if_pos hr, hpcm hbusy hr])
  · exact .inr (by rw [projectAndEnd_outPcm, if_neg hr, hlive hbusy hr])

/-- The building fills no output but `ENC_PCM`'s buffer with zeros (R228, R280). -/
theorem statusInv_built {s b : State} (hs : s.StatusInv) (hbusy : s.status = .busy) (hp : s.phase = .checks)
    (hb : Built s b) : b.StatusInv := by
  have herr := err_of_busy hs hbusy
  obtain ⟨-, -, hcount, hout, -, -, -⟩ := hs
  obtain ⟨hlive, hpcm⟩ := hout hbusy hp
  have hbuf : s.running ≠ .pcm → b.outPcm = [] := fun hr => by rw [hb.outPcm, if_neg hr, hpcm]
  rw [hb.frame]
  exact statusInv_of_project hbusy rfl herr (hcount hbusy) (fun _ => hlive) hbuf

/-- A segment fills the output of the running command alone (R198, R228). -/
theorem statusInv_runSegment {s : State} (hs : s.StatusInv) (hbusy : s.status = .busy) (hp : s.phase = .project)
    (seg : Segment) : (runSegment seg s).StatusInv := by
  have herr := err_of_busy hs hbusy
  obtain ⟨-, -, hcount, -, hpcm, hlive, -⟩ := hs
  obtain ⟨hr, h⟩ | ⟨hr, h⟩ := runSegment_frame seg s
  · rw [h]
    exact statusInv_of_project hbusy hp herr (hcount hbusy) (fun hr' => absurd hr' hr) (hlive hbusy)
  · rw [h]
    exact statusInv_of_project hbusy hp herr (hcount hbusy) (hpcm hbusy) (fun hr' => absurd hr hr')

theorem statusInv_finish {s : State} (hs : s.StatusInv) (hbusy : s.status = .busy) : (finish s).StatusInv := by
  have herr := err_of_busy hs hbusy
  obtain ⟨-, -, -, -, hpcm, hlive, -⟩ := hs
  rw [finish_eq]
  refine statusInv_of_done rfl herr ?_
  by_cases hr : s.running = .pcm
  · exact .inl ((if_pos hr).trans (hpcm hbusy hr))
  · exact .inr (hlive hbusy hr)

theorem statusInv_commandTo {s t : State} (h : CommandTo s t) : t.StatusInv := by
  cases h with
  | cleared => exact statusInv_of_empty (by simp) ⟨rfl, rfl⟩ ⟨rfl, rfl, rfl⟩
  | mapped f0 f1 f2 => exact statusInv_of_done rfl rfl (.inl rfl)
  | failed e c p he => exact statusInv_raiseError he _
  | started c => exact statusInv_acceptEncode c s
  | encoded c b hb =>
    exact statusInv_projectAndEnd (statusInv_built (statusInv_acceptEncode c s) rfl rfl hb) (by rw [hb.frame]; rfl)

theorem statusInv_engineTo {s t : State} (hs : s.StatusInv) (h : EngineTo s t) : t.StatusInv := by
  cases h with
  | access _ h => rw [h.frame]; exact hs
  | reset => exact statusInv_resetWith s.params
  | command _ _ h => exact statusInv_commandTo h
  | failed e he => exact statusInv_raiseError he s
  | built _ hbusy hp hb => exact statusInv_built hs hbusy hp hb
  | segment seg hbusy hp _ _ => exact statusInv_runSegment hs hbusy hp seg
  | finish hbusy _ _ => exact statusInv_finish hs hbusy

/-- Settles O46, from any state that meets `StatusInv`. -/
theorem stepKeepsStatus : Obligations.StepKeepsStatus := by
  intro s t hs h
  obtain ⟨host, ht⟩ := step_engineTo h
  exact statusInv_engineTo (s := { s with host := host }) hs ht

/-! ## The schedule (O47) -/

/-- `SCHED` after a command is well-formed if it was before: a command leaves it, or builds a well-formed one (R95). -/
theorem schedInv_commandTo {s t : State} (hs : s.SchedInv) (h : CommandTo s t) : t.SchedInv := by
  cases h with
  | cleared => exact hs
  | mapped f0 f1 f2 => exact hs
  | failed e c p he => exact hs
  | started c => exact hs
  | encoded c b hb => rw [State.SchedInv, projectAndEnd_sched]; exact hb.wellFormed

theorem schedInv_engineTo {s t : State} (hs : s.SchedInv) (h : EngineTo s t) : t.SchedInv := by
  cases h with
  | access _ h => rw [h.frame]; exact hs
  | reset => exact List.forall_mem_nil _
  | command _ _ h => exact schedInv_commandTo hs h
  | failed e he => exact hs
  | built _ _ _ hb => exact hb.wellFormed
  | segment seg _ _ _ _ => obtain ⟨-, h⟩ | ⟨-, h⟩ := runSegment_frame seg s <;> rw [h] <;> exact hs
  | finish _ _ _ => rw [finish_eq]; exact hs

/-- Settles O47: the one command that writes `SCHED` builds well-formed segments. -/
theorem stepKeepsScheduleWellFormed : Obligations.StepKeepsScheduleWellFormed := by
  intro s t hs h
  obtain ⟨host, ht⟩ := step_engineTo h
  exact schedInv_engineTo (s := { s with host := host }) hs ht

/-! ## The samples (O48) -/

/-- Every amplitude of a list stands for numbers within [-1, 1] alone (R229). -/
def AmpsInRange (as : List Amp) : Prop := ∀ a ∈ as, ∀ x, ampIs a x → -1 ≤ x ∧ x ≤ 1

theorem ampsInRange_nil : AmpsInRange [] := List.forall_mem_nil _

theorem ampsInRange_zeros (k : Nat) : AmpsInRange (List.replicate k (.value 0)) := by
  intro a ha x hx
  obtain rfl := List.eq_of_mem_replicate ha
  obtain rfl : x = ((0 : Rat) : ℝ) := hx
  norm_num

/-- A written sample is a sine (R224, R230 a). -/
theorem AmpsInRange.renderOne {b : PcmBuf} (hb : AmpsInRange b.samples) (c : Synth) (f : Freq) :
    AmpsInRange (renderOne c f b).samples := by
  intro a ha
  obtain h | rfl := List.mem_or_eq_of_mem_set ha
  · exact hb a h
  · exact fun x => sinTurn_range c.num _ x

theorem AmpsInRange.renderTimes {b : PcmBuf} (hb : AmpsInRange b.samples) (c : Synth) (f : Freq) (k : Nat) :
    AmpsInRange (renderTimes c f k b).samples := by
  induction k generalizing b with
  | zero => exact hb
  | succ k ih => exact ih (hb.renderOne c f)

theorem AmpsInRange.renderFreqs {b : PcmBuf} (hb : AmpsInRange b.samples) (c : Synth) (k : Nat) (fs : List Freq) :
    AmpsInRange (renderFreqs c k fs b).samples := by
  induction fs generalizing b with
  | nil => exact hb
  | cons f rest ih => exact ih (hb.renderTimes c f k)

theorem AmpsInRange.renderAll {b : PcmBuf} (hb : AmpsInRange b.samples) (c : Synth) (sched : List Segment) :
    AmpsInRange (renderAll c sched b).samples := by
  induction sched generalizing b with
  | nil => exact hb
  | cons seg rest ih => exact ih (hb.renderFreqs c _ _)

theorem ampsInRange_projectAndEnd {b : State} (hb : AmpsInRange b.outPcm) : AmpsInRange (projectAndEnd b).outPcm := by
  rw [projectAndEnd_outPcm]
  split
  · exact AmpsInRange.renderAll (b := pcmBuf b) hb _ _
  · exact hb

theorem ampsInRange_built {s b : State} (hs : AmpsInRange s.outPcm) (hb : Built s b) : AmpsInRange b.outPcm := by
  rw [hb.outPcm]
  split
  · exact ampsInRange_zeros _
  · exact hs

theorem ampsInRange_runSegment {s : State} (hs : AmpsInRange s.outPcm) (seg : Segment) :
    AmpsInRange (runSegment seg s).outPcm := by
  obtain ⟨-, h⟩ | ⟨-, -, h⟩ | ⟨-, -, h⟩ := runSegment_cases seg s <;> rw [h]
  · exact hs
  · exact AmpsInRange.renderFreqs (b := pcmBuf s) hs _ _ _
  · obtain ⟨-, h⟩ | ⟨-, -, f, h⟩ := runPcmSample_cases seg s <;> rw [h]
    · exact hs
    · rw [advanceSample_frame]
      exact AmpsInRange.renderOne (b := pcmBuf s) hs _ f

theorem ampsInRange_commandTo {s t : State} (h : CommandTo s t) : AmpsInRange t.outPcm := by
  cases h with
  | cleared => exact ampsInRange_nil
  | mapped f0 f1 f2 => exact ampsInRange_nil
  | failed e c p he => exact ampsInRange_nil
  | started c => exact ampsInRange_nil
  | encoded c b hb => exact ampsInRange_projectAndEnd (ampsInRange_built ampsInRange_nil hb)

theorem ampsInRange_engineTo {s t : State} (hs : AmpsInRange s.outPcm) (h : EngineTo s t) : AmpsInRange t.outPcm := by
  cases h with
  | access _ h => rw [h.frame]; exact hs
  | reset => exact ampsInRange_nil
  | command _ _ h => exact ampsInRange_commandTo h
  | failed e he => exact ampsInRange_nil
  | built _ _ _ hb => exact ampsInRange_built hs hb
  | segment seg _ _ _ _ => exact ampsInRange_runSegment hs seg
  | finish _ _ _ => rw [finish_eq]; exact hs

/-- Settles O48: a buffer is filled with zeros and with sines, in every configuration. -/
theorem stepKeepsSamplesInRange : Obligations.StepKeepsSamplesInRange := by
  intro s t hs h
  obtain ⟨host, ht⟩ := step_engineTo h
  exact ampsInRange_engineTo (s := { s with host := host }) hs ht

end Sys2Proof.Machine

namespace Sys2Proof.Machine

open Sys2Proof.Claims

/-! ## The samples of a schedule, counted -/

theorem renderTimes_n (c : Synth) (f : Freq) (k : Nat) (b : PcmBuf) : (renderTimes c f k b).n = b.n + k := by
  induction k generalizing b with
  | zero => rfl
  | succ k ih => rw [renderTimes, ih, renderOne, Nat.add_right_comm, Nat.add_assoc]

theorem renderFreqs_n (c : Synth) (k : Nat) (fs : List Freq) (b : PcmBuf) :
    (renderFreqs c k fs b).n = b.n + fs.length * k := by
  induction fs generalizing b with
  | nil => simp [renderFreqs]
  | cons f rest ih => rw [renderFreqs, ih, renderTimes_n, List.length_cons, Nat.succ_mul, Nat.add_assoc, Nat.add_comm k]

/-- A segment adds its samples to `N` (R222, R223). -/
theorem renderSegment_n (c : Synth) (seg : Segment) (b : PcmBuf) :
    (renderSegment c seg b).n = b.n + segYield c.rate seg := renderFreqs_n _ _ _ _

theorem renderSegment_length (c : Synth) (seg : Segment) (b : PcmBuf) :
    (renderSegment c seg b).samples.length = b.samples.length := renderFreqs_length _ _ _ _

/-- A schedule adds all of its samples to `N` (R226). -/
theorem renderAll_n (c : Synth) (sched : List Segment) (b : PcmBuf) :
    (renderAll c sched b).n = b.n + schedYield c.rate sched := by
  induction sched generalizing b with
  | nil => rfl
  | cons seg rest ih =>
    rw [renderAll, ih, renderSegment_n, Nat.add_assoc]
    rfl

theorem schedYield_append (rate : Nat) (xs ys : List Segment) :
    schedYield rate (xs ++ ys) = schedYield rate xs + schedYield rate ys := by
  simp [schedYield]

theorem schedYield_take_le (rate k : Nat) (sched : List Segment) :
    schedYield rate (sched.take k) ≤ schedYield rate sched := by
  have h := schedYield_append rate (sched.take k) (sched.drop k)
  rw [List.take_append_drop] at h
  omega

/-- The samples up to the end of a segment are those up to its beginning and its own. -/
theorem schedYield_take_succ (rate : Nat) {sched : List Segment} {k : Nat} {seg : Segment}
    (h : sched[k]? = some seg) :
    schedYield rate (sched.take (k + 1)) = schedYield rate (sched.take k) + segYield rate seg := by
  rw [List.take_add_one, h, schedYield_append]
  simp [schedYield]

/-- The time from the beginning of a segment on is its own duration and the time from its end on. -/
theorem totalDuration_drop {sched : List Segment} {k : Nat} {seg : Segment} (h : sched[k]? = some seg) :
    totalDuration (sched.drop k) = segDuration seg + totalDuration (sched.drop (k + 1)) := by
  obtain ⟨hk, rfl⟩ := List.getElem?_eq_some_iff.mp h
  rw [List.drop_eq_getElem_cons hk]
  rfl

/-! ## The engine's place in its schedule (R39) -/

theorem samplesAt_of_segment {s : State} {seg : Segment} (h : s.sched[s.segPtr]? = some seg) :
    samplesAt s = schedYield s.sampleRate.toNat (s.sched.take s.segPtr) +
      (s.sub * segSamples s.sampleRate.toNat seg + s.j) := by
  rw [samplesAt, h]

/-- At the beginning of a segment, or at the end, whole segments have been rendered. -/
theorem samplesAt_of_boundary {s : State} (hsub : s.sub = 0) (hj : s.j = 0) :
    samplesAt s = schedYield s.sampleRate.toNat (s.sched.take s.segPtr) := by
  unfold samplesAt
  split <;> simp [hsub, hj]

/-- Inside the segment at `SEG_PTR` the engine stands at its beginning or at one of its samples (R232). -/
theorem place_in_segment {s : State} {seg : Segment} (hplace : s.PlaceInv) (hseg : s.sched[s.segPtr]? = some seg) :
    (s.sub = 0 ∧ s.j = 0) ∨ (s.sub < (segFreqs seg).length ∧ s.j < segSamples s.sampleRate.toNat seg) := by
  obtain h | ⟨-, seg', hseg', h⟩ := hplace
  · exact .inl h
  · obtain rfl : seg' = seg := Option.some.inj (hseg'.symm.trans hseg)
    exact .inr h

/-- The samples rendered so far are samples of the schedule (R226). -/
theorem samplesAt_le_schedYield {s : State} (hplace : s.PlaceInv) :
    samplesAt s ≤ schedYield s.sampleRate.toNat s.sched := by
  obtain ⟨hsub, hj⟩ | ⟨-, seg, hseg, hsub, hj⟩ := hplace
  · rw [samplesAt_of_boundary hsub hj]
    exact schedYield_take_le _ _ _
  · calc samplesAt s
        = schedYield s.sampleRate.toNat (s.sched.take s.segPtr) +
            (s.sub * segSamples s.sampleRate.toNat seg + s.j) := samplesAt_of_segment hseg
      _ ≤ schedYield s.sampleRate.toNat (s.sched.take s.segPtr) + segYield s.sampleRate.toNat seg := by
          have hnext := Nat.mul_le_mul_right (segSamples s.sampleRate.toNat seg) (Nat.succ_le_of_lt hsub)
          rw [Nat.succ_mul] at hnext
          rw [segYield]
          omega
      _ = schedYield s.sampleRate.toNat (s.sched.take (s.segPtr + 1)) := (schedYield_take_succ _ hseg).symm
      _ ≤ schedYield s.sampleRate.toNat s.sched := schedYield_take_le _ _ _

/-! ## The engine's position (O49) -/

/-- While no command runs nothing is said of the sequencer. -/
theorem seqInv_of_not_busy {t : State} (h : t.status ≠ .busy) : t.SeqInv := fun hb => absurd hb h

/-- While a schedule is projected. -/
theorem seqInv_of_project {t : State} (hp : t.phase = .project) (hptr : t.segPtr ≤ t.sched.length)
    (hlen : t.sched.length ≤ 524302) (hdur : totalDuration t.sched < 2 ^ 52) (hlive : t.running ≠ .pcm → t.LivePosition)
    (hpcm : t.running = .pcm → t.PcmPosition) : t.SeqInv :=
  fun _ => ⟨fun hc => absurd (hp.symm.trans hc) nofun, fun _ => ⟨hptr, hlen, hdur, hlive, hpcm⟩⟩

/-- An accepted command stands at `T0`, with nothing projected (R240). -/
theorem seqInv_acceptEncode (c : EncCmd) (s : State) : (acceptEncode c s).SeqInv :=
  fun _ => ⟨fun _ => ⟨rfl, rfl, rfl, rfl, rfl⟩, nofun⟩

/-- The building puts the engine at the beginning of the schedule, `ENC_PCM` with the buffer of R221. -/
theorem seqInv_built {s b : State} (hs : s.SeqInv) (hbusy : s.status = .busy) (hp : s.phase = .checks)
    (hb : Built s b) : b.SeqInv := by
  obtain ⟨hptr, hsub, hj, hn, hacc⟩ := (hs hbusy).1 hp
  obtain ⟨hframe, -, hlen, hdur, hbuf⟩ := hb
  have hptr : b.segPtr = 0 := by rw [hframe]; exact hptr
  have hsub : b.sub = 0 := by rw [hframe]; exact hsub
  have hj : b.j = 0 := by rw [hframe]; exact hj
  have hn : b.n = 0 := by rw [hframe]; exact hn
  have hacc : b.tAcc = startTime b := by rw [hframe]; exact hacc
  have hrunning : s.running = b.running := by rw [hframe]
  refine seqInv_of_project (by rw [hframe]) (by omega) hlen hdur (fun _ => ⟨hsub, hj, hn, ?_⟩)
    fun hr => ⟨hacc, ?_, .inl ⟨hsub, hj⟩, ?_⟩
  · rw [hptr, hacc, List.drop_zero]
  · rw [samplesAt_of_boundary hsub hj, hptr, hn]
    rfl
  · rw [hbuf, if_pos (hrunning.trans hr), List.length_replicate]

/-- A segment of the live walk adds its duration to `T_ACC` (R198). -/
theorem livePosition_runLive {s : State} {seg : Segment} (h : s.LivePosition) (hseg : s.sched[s.segPtr]? = some seg) :
    (runLive seg s).LivePosition := by
  obtain ⟨-, -, hn, hacc⟩ := h
  rw [totalDuration_drop hseg, ← Nat.add_assoc] at hacc
  exact ⟨rfl, rfl, hn, hacc⟩

/-- A segment rendered to its end leaves the engine at the beginning of the next (R232). -/
theorem pcmPosition_nextSegment {u : State} {seg : Segment} (hseg : u.sched[u.segPtr]? = some seg)
    (hacc : u.tAcc = startTime u)
    (hn : u.n = schedYield u.sampleRate.toNat (u.sched.take u.segPtr) + segYield u.sampleRate.toNat seg)
    (hlen : u.outPcm.length = sampleTotal u.sampleRate.toNat u.sched) : (nextSegment u).PcmPosition := by
  refine ⟨hacc, ?_, .inl ⟨rfl, rfl⟩, hlen⟩
  rw [samplesAt_of_boundary rfl rfl]
  exact hn.trans (schedYield_take_succ _ hseg).symm

/-- A whole segment of the sample walk (R228). -/
theorem pcmPosition_runPcmSegment {s : State} {seg : Segment} (h : s.PcmPosition) (hv : s.view ≠ .sample)
    (hseg : s.sched[s.segPtr]? = some seg) : (runPcmSegment seg s).PcmPosition := by
  obtain ⟨hacc, hn, ⟨hsub, hj⟩ | ⟨hsample, -⟩, hlen⟩ := h
  · rw [samplesAt_of_boundary hsub hj] at hn
    refine pcmPosition_nextSegment hseg hacc ?_ ((renderSegment_length _ _ _).trans hlen)
    exact (renderSegment_n _ _ _).trans (congrArg (· + _) hn)
  · exact absurd hsample hv

/-- Advancing after the sample at `(SUB, J)` has been written: to the next sample of its frequency, to the next
frequency, or to the next segment (R232). -/
theorem pcmPosition_advanceSample {u : State} {seg : Segment} (hv : u.view = .sample)
    (hseg : u.sched[u.segPtr]? = some seg) (hacc : u.tAcc = startTime u) (hn : u.n = samplesAt u + 1)
    (hsub : u.sub < (segFreqs seg).length) (hj : u.j < segSamples u.sampleRate.toNat seg)
    (hlen : u.outPcm.length = sampleTotal u.sampleRate.toNat u.sched) : (advanceSample seg u).PcmPosition := by
  rw [samplesAt_of_segment hseg] at hn
  have hnext := Nat.add_one_mul u.sub (segSamples u.sampleRate.toNat seg)
  unfold advanceSample
  split
  · rename_i hmore
    refine ⟨hacc, ?_, .inr ⟨hv, seg, hseg, hsub, hmore⟩, hlen⟩
    rw [samplesAt_of_segment (s := { u with j := u.j + 1 }) hseg]
    exact hn
  split
  · rename_i hmore
    refine ⟨hacc, ?_, .inr ⟨hv, seg, hseg, hmore, Nat.zero_lt_of_lt hj⟩, hlen⟩
    rw [samplesAt_of_segment (s := { u with j := 0, sub := u.sub + 1 }) hseg]
    simp only
    omega
  · have hlast : (segFreqs seg).length = u.sub + 1 := by omega
    refine pcmPosition_nextSegment hseg hacc ?_ hlen
    rw [segYield, hlast]
    omega

/-- One step of the sample walk (R232). -/
theorem pcmPosition_runPcmSample {s : State} {seg : Segment} (h : s.PcmPosition) (hv : s.view = .sample)
    (hseg : s.sched[s.segPtr]? = some seg) : (runPcmSample seg s).PcmPosition := by
  obtain ⟨hacc, hn, hplace, hlen⟩ := h
  have hin := place_in_segment hplace hseg
  obtain ⟨hskip, h⟩ | ⟨hc, hsub, f, h⟩ := runPcmSample_cases seg s <;> rw [h]
  · have hempty : segYield s.sampleRate.toNat seg = 0 := by
      refine Nat.mul_eq_zero.mpr ?_
      omega
    obtain ⟨hsub, hj⟩ : s.sub = 0 ∧ s.j = 0 := by omega
    refine pcmPosition_nextSegment hseg hacc ?_ hlen
    rw [hn, samplesAt_of_boundary hsub hj, hempty, Nat.add_zero]
  · have hj : s.j < segSamples s.sampleRate.toNat seg := by omega
    exact pcmPosition_advanceSample (u := withPcm (renderOne (synthOf s) f (pcmBuf s)) s) hv hseg hacc
      (congrArg (· + 1) hn) hsub hj (List.length_set.trans hlen)

/-- One step of the sample walk stays in its segment or goes to the next (R232). -/
theorem runPcmSample_segPtr_le (seg : Segment) (s : State) : (runPcmSample seg s).segPtr ≤ s.segPtr + 1 := by
  obtain ⟨-, h⟩ | ⟨-, -, f, h⟩ := runPcmSample_cases seg s <;> rw [h]
  · exact le_rfl
  · unfold advanceSample
    split
    · exact Nat.le_succ _
    · split
      · exact Nat.le_succ _
      · exact le_rfl

/-- A segment, or a sample of it, leaves the engine's position right (R198, R228, R232). -/
theorem seqInv_runSegment {s : State} {seg : Segment} (hs : s.SeqInv) (hbusy : s.status = .busy)
    (hp : s.phase = .project) (hseg : s.sched[s.segPtr]? = some seg) : (runSegment seg s).SeqInv := by
  obtain ⟨-, hlen, hdur, hlive, hpcm⟩ := (hs hbusy).2 hp
  obtain ⟨hptr, -⟩ := List.getElem?_eq_some_iff.mp hseg
  obtain ⟨hr, h⟩ | ⟨hr, hv, h⟩ | ⟨hr, hv, h⟩ := runSegment_cases seg s <;> rw [h]
  · exact seqInv_of_project hp hptr hlen hdur (fun _ => livePosition_runLive (hlive hr) hseg)
      fun hr' => absurd hr' hr
  · exact seqInv_of_project hp hptr hlen hdur (fun hr' => absurd hr hr')
      fun _ => pcmPosition_runPcmSegment (hpcm hr) hv hseg
  · have hpos := pcmPosition_runPcmSample (hpcm hr) hv hseg
    have hnext := (runPcmSample_segPtr_le seg s).trans hptr
    rw [runPcmSample_frame] at hpos hnext ⊢
    exact seqInv_of_project hp hnext hlen hdur (fun hr' => absurd hr hr') fun _ => hpos

theorem seqInv_commandTo {s t : State} (h : CommandTo s t) : t.SeqInv := by
  cases h with
  | cleared => exact seqInv_of_not_busy nofun
  | mapped f0 f1 f2 => exact seqInv_of_not_busy nofun
  | failed e c p he => exact seqInv_of_not_busy nofun
  | started c => exact seqInv_acceptEncode c s
  | encoded c b hb => exact seqInv_of_not_busy (by rw [projectAndEnd_status]; nofun)

theorem seqInv_engineTo {s t : State} (hs : s.SeqInv) (h : EngineTo s t) : t.SeqInv := by
  cases h with
  | access _ h =>
    by_cases hbusy : s.status = .busy
    · rw [h.busy hbusy]; exact hs
    · rw [h.frame]; exact seqInv_of_not_busy hbusy
  | reset => exact seqInv_of_not_busy nofun
  | command _ _ h => exact seqInv_commandTo h
  | failed e he => exact seqInv_of_not_busy nofun
  | built _ hbusy hp hb => exact seqInv_built hs hbusy hp hb
  | segment seg hbusy hp hseg _ => exact seqInv_runSegment hs hbusy hp hseg
  | finish _ _ _ => exact seqInv_of_not_busy (by rw [finish_eq]; nofun)

/-- Settles O49: the building puts the engine at the beginning of its schedule, and each turn moves it on by what it
projects. -/
theorem stepKeepsTheEnginePosition : Obligations.StepKeepsTheEnginePosition := by
  intro s t _ hs h
  obtain ⟨host, ht⟩ := step_engineTo h
  exact seqInv_engineTo (s := { s with host := host }) hs ht

/-! ## The counters after a command (O51) -/

/-- The samples of an `ENC_PCM` at the end of its schedule fit its buffer, and the live commands count none (R226). -/
theorem countInv_finish {s : State} (hdur : totalDuration s.sched < 2 ^ 52)
    (hpcm : s.running = .pcm → s.outPcm.length = sampleTotal s.sampleRate.toNat s.sched ∧
      s.n ≤ schedYield s.sampleRate.toNat s.sched)
    (hlive : s.running ≠ .pcm → s.outPcm = [] ∧ s.sampCount = 0 ∧ s.sampEmit = 0) : (finish s).CountInv := by
  intro _
  rw [finish_eq]
  by_cases hr : s.running = .pcm
  · obtain ⟨hlen, hn⟩ := hpcm hr
    have hfit := sampleTotal_lt (rate := s.sampleRate) hdur
    have hle := hn.trans (schedYield_le_sampleTotal _ _)
    simp only [if_pos hr, BitVec.toNat_ofNat, Nat.mod_eq_of_lt hfit, Nat.mod_eq_of_lt (hle.trans_lt hfit)]
    exact ⟨hlen, hle⟩
  · obtain ⟨hout, hcount, hemit⟩ := hlive hr
    simp only [if_neg hr, hout, hcount, hemit]
    exact ⟨rfl, le_rfl⟩

/-- At once, `ENC_PCM` renders all of its schedule into its buffer (R226, R228). -/
theorem countInv_projectAndEnd {c : EncCmd} {s b : State} (hb : Built (acceptEncode c s) b) :
    (projectAndEnd b).CountInv := by
  obtain ⟨hframe, -, -, hdur, hbuf⟩ := hb
  have hrunning : (acceptEncode c s).running = b.running := by rw [hframe]
  rw [hrunning] at hbuf
  by_cases hr : b.running = .pcm
  · rw [if_pos hr] at hbuf
    have hn : b.n = 0 := by rw [hframe]; rfl
    rw [projectAndEnd_of_pcm hr]
    refine countInv_finish hdur (fun _ => ⟨?_, ?_⟩) fun hr' => absurd hr hr'
    · exact (renderAll_length _ _ _).trans ((congrArg List.length hbuf).trans List.length_replicate)
    · refine le_of_eq ((renderAll_n _ _ _).trans ?_)
      rw [show (pcmBuf b).n = 0 from hn, Nat.zero_add]
      rfl
  · rw [if_neg hr] at hbuf
    rw [projectAndEnd_of_live hr]
    refine countInv_finish hdur (fun hr' => absurd hr' hr) fun _ => ⟨hbuf, ?_, ?_⟩
    · rw [projectLive, hframe]; rfl
    · rw [projectLive, hframe]; rfl

theorem countInv_of_not_done {t : State} (h : t.status ≠ .done) : t.CountInv := fun hd => absurd hd h

theorem countInv_commandTo {s t : State} (h : CommandTo s t) : t.CountInv := by
  cases h with
  | cleared => exact countInv_of_not_done nofun
  | mapped f0 f1 f2 => exact fun _ => ⟨rfl, le_rfl⟩
  | failed e c p he => exact countInv_of_not_done nofun
  | started c => exact countInv_of_not_done nofun
  | encoded c b hb => exact countInv_projectAndEnd hb

theorem runSegment_status (seg : Segment) (s : State) : (runSegment seg s).status = s.status := by
  obtain ⟨-, h⟩ | ⟨-, h⟩ := runSegment_frame seg s <;> rw [h]

/-- At the end of its schedule a command's counts are right, by its position and by what its status says. -/
theorem countInv_finish_of_seqInv {s : State} (hstatus : s.StatusInv) (hs : s.SeqInv) (hbusy : s.status = .busy)
    (hp : s.phase = .project) : (finish s).CountInv := by
  obtain ⟨-, -, hdur, -, hpcm⟩ := (hs hbusy).2 hp
  obtain ⟨-, -, hcount, -, -, hlive, -⟩ := hstatus
  obtain ⟨-, hsamp, hemit⟩ := hcount hbusy
  refine countInv_finish hdur (fun hr => ?_) fun hr => ⟨hlive hbusy hr, hsamp, hemit⟩
  obtain ⟨-, hn, hplace, hlen⟩ := hpcm hr
  exact ⟨hlen, hn ▸ samplesAt_le_schedYield hplace⟩

theorem countInv_engineTo {s t : State} (hstatus : s.StatusInv) (hs : s.SeqInv) (hc : s.CountInv)
    (h : EngineTo s t) : t.CountInv := by
  cases h with
  | access _ h => rw [h.frame]; exact hc
  | reset => exact countInv_of_not_done nofun
  | command _ _ h => exact countInv_commandTo h
  | failed e he => exact countInv_of_not_done nofun
  | built _ hbusy _ hb => exact countInv_of_not_done (by rw [hb.frame]; exact fun h => nomatch hbusy.symm.trans h)
  | segment seg hbusy _ _ _ =>
    exact countInv_of_not_done fun h => nomatch hbusy.symm.trans ((runSegment_status seg s).symm.trans h)
  | finish hbusy hp _ => exact countInv_finish_of_seqInv hstatus hs hbusy hp

/-- Settles O51: what ends `ENC_PCM` has rendered no more than its buffer holds, and every other end counts none. -/
theorem stepKeepsTheSampleCounts : Obligations.StepKeepsTheSampleCounts := by
  intro s t hstatus hs hc h
  obtain ⟨host, ht⟩ := step_engineTo h
  exact countInv_engineTo (s := { s with host := host }) hstatus hs hc ht

/-! ## The widths of the engine's counters (O52) -/

/-- A start time has 63 bits (R29). -/
theorem startTime_lt (s : State) : startTime s < 2 ^ 63 := by
  have hlo := s.t0Lo.isLt
  have hhi := s.t0Hi.isLt
  have hsum : s.t0Hi.toNat * 2 ^ 32 + s.t0Lo.toNat < 2 ^ 63 := by omega
  exact hsum

/-- A well-formed segment has at most 65535 frequencies (R95). -/
theorem segFreqs_length_le {seg : Segment} (hwf : (segmentInstr seg).WellFormed) : (segFreqs seg).length ≤ 65535 := by
  cases seg with
  | hold f d => exact Nat.le_of_ble_eq_true rfl
  | curve fs d =>
    simp only [segmentInstr, Instr.WellFormed, Instr.flaw, curveFlaw] at hwf
    split at hwf
    · split at hwf
      · contradiction
      · split at hwf
        · contradiction
        · exact Nat.le_of_not_lt ‹_›
    · contradiction

/-- Settles O52: `SUB` and `J` are below what their segment yields, `N` below what the schedule does, and `T_ACC` no
more than the start time and the schedule's duration. -/
theorem engineCountersFitTheirWidths : Obligations.EngineCountersFitTheirWidths := by
  intro s hsched hs hbusy hp
  obtain ⟨hptr, hlen, hdur, hlive, hpcm⟩ := (hs hbusy).2 hp
  have hstart := startTime_lt s
  have hptr : s.segPtr < 2 ^ 32 := by omega
  by_cases hr : s.running = .pcm
  · obtain ⟨hacc, hn, hplace, -⟩ := hpcm hr
    have hfit := sampleTotal_lt (rate := s.sampleRate) hdur
    have hle := (samplesAt_le_schedYield hplace).trans (schedYield_le_sampleTotal _ _)
    refine ⟨hptr, ?_, ?_, by omega, hacc ▸ hstart.trans (by decide)⟩
    · obtain ⟨hsub, -⟩ | ⟨-, seg, hseg, hsub, -⟩ := hplace
      · omega
      · have := segFreqs_length_le (hsched seg (List.mem_of_getElem? hseg))
        omega
    · obtain ⟨-, hj⟩ | ⟨-, seg, hseg, -, -⟩ := hplace
      · omega
      · rw [samplesAt_of_segment hseg] at hle
        omega
  · obtain ⟨hsub, hj, hn, hacc⟩ := hlive hr
    have hle : s.tAcc ≤ startTime s + totalDuration s.sched := Nat.le_of_add_right_le hacc.le
    exact ⟨hptr, by omega, by omega, by omega, hle.trans_lt ((Nat.add_lt_add hstart hdur).trans (by decide))⟩

end Sys2Proof.Machine

namespace Sys2Proof.Machine

open Sys2Proof.Claims

/-! ## Pixel memory and the parameters (O45) -/

/-- What a step does to what the host owns: hand over what a read returns, write pixels or a register, reset, or
nothing, where the engine has the turn. -/
theorem stepTo_cases {s t : State} (h : StepTo s t) :
    (∃ d f, t = { s with hostData := d, readFault := f }) ∨ (∃ addr bytes, t = pixWriteBytes s addr bytes) ∨
      (∃ r v, t = writeReg r v s) ∨ t = resetBlock s ∨ OnlyEngine s t := by
  cases h with
  | same => exact .inl ⟨_, _, rfl⟩
  | readWord offset width => exact .inl ⟨_, _, rfl⟩
  | readOutput d => exact .inl ⟨_, _, rfl⟩
  | pixels addr bytes _ => exact .inr (.inl ⟨addr, bytes, rfl⟩)
  | register r v _ => exact .inr (.inr (.inl ⟨r, v, rfl⟩))
  | command i _ w _ _ hi => exact .inr (.inr (.inr (.inr (onlyEngine_exec hi))))
  | reserved _ => exact .inr (.inr (.inr (.inr rfl)))
  | reset => exact .inr (.inr (.inr (.inl rfl)))
  | checks _ _ _ hc => exact .inr (.inr (.inr (.inr (onlyEngine_of_onlyOutputs (onlyOutputs_checkAndBuild hc)))))
  | segment seg _ _ _ _ => exact .inr (.inr (.inr (.inr (onlyEngine_of_onlyOutputs (onlyOutputs_runSegment seg s)))))
  | finish _ _ _ => exact .inr (.inr (.inr (.inr (onlyEngine_of_onlyOutputs (onlyOutputs_finish s)))))

/-- A step passes on the parameters it was given (R47). -/
theorem stepTo_params {s t : State} (h : StepTo s t) : t.params = s.params := by
  obtain ⟨d, f, rfl⟩ | ⟨addr, bytes, rfl⟩ | ⟨r, v, rfl⟩ | rfl | h := stepTo_cases h
  · rfl
  · rw [pixWriteBytes_frame]
  · rw [writeReg_frame]
  · rfl
  · rw [show t = _ from h]

/-- A register write leaves `PIX_LEN`, or stores the value clamped to the populated memory (R30). -/
theorem writeReg_pixLen (r : Reg) (v : Word) (s : State) :
    (writeReg r v s).pixLen = s.pixLen ∨ (writeReg r v s).pixLen = clampPixLen s.params.pixmemBytes v := by
  cases r with
  | pixLen => exact .inr rfl
  | _ => exact .inl rfl

theorem clampPixLen_le (bound : Nat) (v : Word) : (clampPixLen bound v).toNat ≤ bound := by
  rw [clampPixLen, BitVec.toNat_ofNat]
  exact (Nat.mod_le _ _).trans (Nat.min_le_right _ _)

theorem pixInv_pixWriteBytes {s : State} (hs : s.PixInv) (addr : Nat) (bytes : List Byte) :
    (pixWriteBytes s addr bytes).PixInv := by
  obtain ⟨hpos, hlt, hwf, hbelow, hlen⟩ := hs
  obtain ⟨hwf', hbelow'⟩ := pixWriteBytes_wf s addr bytes hwf hbelow
  rw [pixWriteBytes_frame]
  exact ⟨hpos, hlt, hwf', hbelow', hlen⟩

theorem pixInv_writeReg {s : State} (hs : s.PixInv) (r : Reg) (v : Word) : (writeReg r v s).PixInv := by
  obtain ⟨hpos, hlt, hwf, hbelow, hlen⟩ := hs
  have hlen' : (writeReg r v s).pixLen.toNat ≤ s.params.pixmemBytes := by
    obtain h | h := writeReg_pixLen r v s <;> rw [h]
    · exact hlen
    · exact clampPixLen_le _ v
  rw [writeReg_frame]
  exact ⟨hpos, hlt, hwf, hbelow, hlen'⟩

/-- Reset empties pixel memory and `PIX_LEN` (R49). -/
theorem pixInv_resetWith {p : Params} (hpos : 0 < p.pixmemBytes) (hlt : p.pixmemBytes < 2 ^ 32) :
    (State.resetWith p).PixInv :=
  ⟨hpos, hlt, rfl, rfl, Nat.zero_le _⟩

theorem pixInv_stepTo {s t : State} (hs : s.PixInv) (h : StepTo s t) : t.PixInv := by
  obtain ⟨d, f, rfl⟩ | ⟨addr, bytes, rfl⟩ | ⟨r, v, rfl⟩ | rfl | h := stepTo_cases h
  · exact hs
  · exact pixInv_pixWriteBytes hs addr bytes
  · exact pixInv_writeReg hs r v
  · obtain ⟨hpos, hlt, -⟩ := hs
    exact pixInv_resetWith hpos hlt
  · rw [show t = _ from h]; exact hs

/-- `step` is `blockStep` of its own parameters and block (R47). -/
theorem step_eq_blockStep (p : Params) (b : Block) :
    step { b with params := p } =
      match blockStep p b with
      | .next c => .next { c with params := p }
      | .fault r => .fault r
      | .refused r => .refused r := by
  unfold blockStep
  cases h : step { b with params := p } with
  | next t =>
    obtain ⟨host, ht⟩ := step_stepTo _ t h
    have hp : t.params = p := stepTo_params ht
    rw [← hp]
  | fault r => rfl
  | refused r => rfl

/-- Settles O45: pixel writes keep the canonical form, register writes clamp, and nothing else writes the host's own. -/
theorem stepKeepsPixelMemory : Obligations.StepKeepsPixelMemory := by
  refine ⟨fun s t hs h => ?_, step_eq_blockStep⟩
  obtain ⟨host, ht⟩ := step_stepTo s t h
  exact pixInv_stepTo (s := { s with host := host }) hs ht

/-! ## What a step faults on (O54) -/

/-- The outcome of a step on `s` is no fault, unless a pixel byte below `PIX_LEN` has no value (U3). -/
def FaultsOnUnwritten (s : State) (o : Host.Outcome State Fault Refusal) : Prop :=
  ∀ r, o = .fault r → ∃ a < s.pixLen.toNat, memRead s.pix a = none

@[simp] theorem faultsOnUnwritten_next (s t : State) : FaultsOnUnwritten s (.next t) := nofun

@[simp] theorem faultsOnUnwritten_refused (s : State) (r : Refusal) : FaultsOnUnwritten s (.refused r) := nofun

theorem faultsOnUnwritten_andThen {s : State} {o : Host.Outcome State Fault Refusal}
    {f : State → Host.Outcome State Fault Refusal} (ho : FaultsOnUnwritten s o)
    (hf : ∀ u, FaultsOnUnwritten s (f u)) : FaultsOnUnwritten s (andThen o f) := by
  cases o with
  | next u => exact hf u
  | fault r => exact ho
  | refused r => exact faultsOnUnwritten_refused s r

/-- Acceptance leaves `PIX` and `PIX_LEN`, so a command faults where its body does (R240). -/
theorem faultsOnUnwritten_runCommand {f : State → Host.Outcome State Fault Refusal} {s : State}
    (hf : FaultsOnUnwritten (accept s) (f (accept s))) : FaultsOnUnwritten s (runCommand f s) := by
  unfold runCommand
  split
  · exact faultsOnUnwritten_next s s
  · exact hf

/-- A pixel without its colours has a colour byte without a value (U3). -/
theorem exists_unwritten_of_pixColours {m : List Host.Cell} {b : Nat} (h : ¬ (pixColours m b).isSome = true) :
    ∃ k < 3, memRead m (b + k) = none := by
  rw [pixColours_isSome_iff] at h
  push Not at h
  obtain ⟨k, hk, hnone⟩ := h
  exact ⟨k, hk, by simpa using hnone⟩

/-- A `MAP_*` reads one pixel inside the buffer (R62, R136). -/
theorem faultsOnUnwritten_mapPixel (w : Nat → Nat → Nat → State → State) (s : State) :
    FaultsOnUnwritten s (mapPixel w s) := by
  unfold mapPixel
  split
  · rename_i hb
    split
    · exact faultsOnUnwritten_next s _
    · rename_i hc
      intro _ _
      obtain ⟨k, hk, hnone⟩ := exists_unwritten_of_pixColours (by rw [hc]; nofun)
      simp only [pixInBounds, decide_eq_true_eq] at hb
      refine ⟨_, ?_, hnone⟩
      omega
  · exact faultsOnUnwritten_next s _

/-- An encode command reads an image that fits the buffer (R277, R305 b). -/
theorem faultsOnUnwritten_checkAndBuild (s : State) : FaultsOnUnwritten s (checkAndBuild s) := by
  intro r h
  unfold checkAndBuild at h
  split at h
  · cases h
  rename_i he
  unfold build at h
  split at h
  · cases h
  rename_i hc
  split at h
  · cases h
  unfold buildImage at h
  split at h
  · cases h
  rename_i hw
  obtain ⟨fam, -, -, -, -, -, -, hlen⟩ := (encodeError_eq_none_iff _ s hc).mp he
  rw [imageWritten_iff] at hw
  push Not at hw
  obtain ⟨l, hl, x, hx, k, hk, hnone⟩ := hw
  have := pixBase_lt hl hx
  refine ⟨pixBase s.hPixels.toNat l x + k, ?_, by simpa using hnone⟩
  omega

theorem faultsOnUnwritten_encodeBody (c : EncCmd) (s : State) : FaultsOnUnwritten s (encodeBody c s) := by
  unfold encodeBody
  split
  · have hbuild := faultsOnUnwritten_checkAndBuild { s with running := c, phase := .checks }
    refine faultsOnUnwritten_andThen hbuild fun b => ?_
    unfold projectIfBusy
    split <;> simp
  · simp
  · simp

theorem faultsOnUnwritten_exec (i : Instr) (s : State) : FaultsOnUnwritten s (exec i s) := by
  cases i with
  | clear => exact faultsOnUnwritten_runCommand (f := fun a => .next (flagsIdle a)) (faultsOnUnwritten_next _ _)
  | mapGrey => exact faultsOnUnwritten_runCommand (faultsOnUnwritten_mapPixel _ _)
  | mapRgb => exact faultsOnUnwritten_runCommand (faultsOnUnwritten_mapPixel _ _)
  | mapYc => exact faultsOnUnwritten_runCommand (faultsOnUnwritten_mapPixel _ _)
  | encHdr => exact faultsOnUnwritten_runCommand (faultsOnUnwritten_encodeBody _ _)
  | encLive => exact faultsOnUnwritten_runCommand (faultsOnUnwritten_encodeBody _ _)
  | encPcm => exact faultsOnUnwritten_runCommand (faultsOnUnwritten_encodeBody _ _)
  | hold f d => exact faultsOnUnwritten_next s _
  | curve fs d => exact faultsOnUnwritten_next s _
  | set f t => exact faultsOnUnwritten_next s _
  | curveAt fs t d => exact faultsOnUnwritten_next s _
  | span start stop => exact faultsOnUnwritten_next s _

theorem faultsOnUnwritten_hostWrite (offset : Nat) (width : AccessWidth) (v : Word) (s : State) :
    FaultsOnUnwritten s (hostWrite offset width v s) := by
  unfold hostWrite commandWrite
  split
  · simp
  · split
    · split
      · exact faultsOnUnwritten_exec _ s
      · exact faultsOnUnwritten_runCommand
          (f := fun a => .next (raiseError .unsupportedFormatOperation a)) (faultsOnUnwritten_next _ _)
    · simp

theorem faultsOnUnwritten_engineTurn (s : State) : FaultsOnUnwritten s (engineTurn s) := by
  unfold engineTurn
  split
  · simp
  · simp
  · simp
  · split
    · exact faultsOnUnwritten_checkAndBuild s
    · split
      · unfold engineSegment
        split
        · exact faultsOnUnwritten_exec _ s
        · simp
      · unfold engineEnd
        split
        · exact faultsOnUnwritten_andThen (faultsOnUnwritten_exec _ s) fun _ => faultsOnUnwritten_next _ _
        · exact faultsOnUnwritten_andThen (faultsOnUnwritten_exec _ s) fun _ => faultsOnUnwritten_next _ _
        · simp

/-- Every move but a command and the engine's turn goes on. -/
theorem faultsOnUnwritten_step (s : State) : FaultsOnUnwritten s (step s) := by
  unfold step turn
  split
  · exact faultsOnUnwritten_engineTurn s
  · rename_i m rest _
    cases m with
    | write offset width v => exact faultsOnUnwritten_hostWrite offset width v { s with host := rest }
    | read offset width => exact faultsOnUnwritten_next s _
    | pixels addr bytes => exact faultsOnUnwritten_next s _
    | readLive index => exact faultsOnUnwritten_next s _
    | readPcm index => exact faultsOnUnwritten_next s _
    | yield => exact faultsOnUnwritten_engineTurn { s with host := rest }
    | await =>
      unfold hostTurn
      simp only
      split
      · exact faultsOnUnwritten_engineTurn s
      · exact faultsOnUnwritten_next s _
    | reset => exact faultsOnUnwritten_next s _

/-! ## What records a read fault (O54) -/

/-- Only a word read of a window of an unwritten `FREQ` register is U4's (R38, R64). -/
theorem window_of_readsUnwritten {offset : Nat} {width : AccessWidth} {s : State}
    (h : readsUnwritten (regOf offset width) s = true) :
    width = .word ∧
      ((0x60 ≤ offset ∧ offset < 0x70 ∧ s.freq0.written = false) ∨
        (0x70 ≤ offset ∧ offset < 0x80 ∧ s.freq1.written = false) ∨
        (0x80 ≤ offset ∧ offset < 0x90 ∧ s.freq2.written = false)) := by
  cases width with
  | byte => contradiction
  | half => contradiction
  | double => contradiction
  | word =>
    unfold regOf regAt at h
    simp only at h
    split at h <;> simp_all [readsUnwritten]

theorem readsUnwritten_host (r : Reg) (s : State) (moves : List HostMove) :
    readsUnwritten r { s with host := moves } = readsUnwritten r s := by
  cases r <;> rfl

theorem engineTurn_readFault {s t : State} (h : engineTurn s = .next t) : t.readFault = s.readFault := by
  obtain ⟨-, rfl⟩ | ⟨-, -, hc⟩ | ⟨-, -, seg, -, -, rfl⟩ | ⟨-, -, -, rfl⟩ := engineTurn_next s t h
  · rfl
  · rw [onlyOutputs_checkAndBuild hc]
  · rw [onlyOutputs_runSegment]
  · exact congrArg (·.readFault) (onlyOutputs_finish s)

theorem hostWrite_readFault {offset : Nat} {width : AccessWidth} {v : Word} {s t : State}
    (h : hostWrite offset width v s = .next t) : t.readFault = s.readFault := by
  obtain ⟨-, rfl⟩ | ⟨-, -, h⟩ | ⟨-, -, rfl⟩ := hostWrite_next offset width v s t h
  · rfl
  · unfold commandWrite at h
    split at h
    · rw [show t = _ from onlyEngine_exec h]
    · rw [onlyOutputs_runCommand (f := fun a => .next (raiseError .unsupportedFormatOperation a))
        (fun h => by cases h; rfl) h]
  · rw [writeReg_frame]

/-- A host move other than a register read leaves the record of a read fault (R38). -/
theorem hostTurn_readFault {m : HostMove} {s t : State} {rest : List HostMove}
    (hm : ∀ offset width, m ≠ .read offset width)
    (h : hostTurn m s { s with host := rest } = .next t) : t.readFault = s.readFault := by
  cases m with
  | write offset width v => exact hostWrite_readFault (s := { s with host := rest }) h
  | read offset width => exact absurd rfl (hm offset width)
  | pixels addr bytes =>
    cases h
    unfold hostPixels
    split
    · rfl
    · rw [pixWriteBytes_frame]
  | readLive index => cases h; rfl
  | readPcm index => cases h; rfl
  | yield => exact engineTurn_readFault (s := { s with host := rest }) h
  | await =>
    unfold hostTurn at h
    simp only at h
    split at h
    · exact engineTurn_readFault h
    · cases h; rfl
  | reset => cases h; rfl

/-- What a step does to the record of a read fault: leave it, or add that of a register read (R38). -/
theorem step_readFault {s t : State} (h : step s = .next t) :
    t.readFault = s.readFault ∨ ∃ offset width rest, s.host = .read offset width :: rest ∧
      t.readFault = (s.readFault || readsUnwritten (regOf offset width) s) := by
  obtain ⟨-, h⟩ | ⟨m, rest, hm, h⟩ := step_next s t h
  · exact .inl (engineTurn_readFault h)
  by_cases hread : ∃ offset width, m = .read offset width
  · obtain ⟨offset, width, rfl⟩ := hread
    cases h
    exact .inr ⟨offset, width, rest, hm, congrArg (s.readFault || ·) (readsUnwritten_host _ s rest)⟩
  · exact .inl (hostTurn_readFault (fun offset width he => hread ⟨offset, width, he⟩) h)

/-- Settles O54: the reads of pixel bytes, and the reads of registers. -/
theorem stepFaultsOnlyOnUnwrittenState : Obligations.StepFaultsOnlyOnUnwrittenState := by
  refine ⟨fun s r h => faultsOnUnwritten_step s r h, fun s t h => ?_⟩
  obtain heq | ⟨offset, width, rest, hm, heq⟩ := step_readFault h
  · exact ⟨fun hs => heq.trans hs, fun hs ht => absurd (hs.symm.trans (heq.symm.trans ht)) nofun⟩
  · refine ⟨fun hs => by rw [heq, hs]; rfl, fun hs ht => ?_⟩
    rw [heq, hs, Bool.false_or] at ht
    obtain ⟨rfl, hwindow⟩ := window_of_readsUnwritten ht
    exact ⟨offset, rest, hm, hwindow⟩

end Sys2Proof.Machine

namespace Sys2Proof.Machine

open Sys2Proof.Claims

/-! ## What a step runs (O4, O5) -/

/-- A lone word that decodes is a command's: every other instruction has fields after its header (R92, R97). -/
theorem decodeCommand_of_decode {w : Word} {i : Instr} (h : decode [.word w] = .ok (i, [])) :
    decodeCommand w = some i := by
  have hcount {body : Except DecodeError (Instr × List Field)} (hb : body ≠ .ok (i, [])) :
      withoutCount w body ≠ .ok (i, []) := by
    unfold withoutCount
    split
    · exact hb
    · nofun
  have hzero {body : Except DecodeError (Instr × List Field)} (hb : body ≠ .ok (i, [])) :
      (if headerZero w = 0 then body else .error .reservedBits) ≠ .ok (i, []) := by
    split
    · exact hb
    · nofun
  unfold decode decodeFrom at h
  simp only at h
  split at h
  · split at h
    · rename_i hw
      cases h
      exact hw
    · contradiction
  · exact absurd h (hzero (hcount nofun))
  · exact absurd h (hzero nofun)
  · exact absurd h (hzero (hcount nofun))
  · exact absurd h (hzero nofun)
  · exact absurd h (hzero (hcount nofun))
  · contradiction

/-- A word written to `CMD` of a block that is not busy goes to the decoder (R240). -/
theorem step_commandWrite {s : State} {w : Word} {rest : List HostMove} (hs : s.status ≠ .busy)
    (hh : s.host = .write 0x00 .word w :: rest) : step s = commandWrite w { s with host := rest } := by
  rw [step, turn, hh]
  exact if_neg hs

/-- Settles O4: the decoder of command words agrees with the one of streams. -/
theorem stepRunsTheCommandWritten : Obligations.StepRunsTheCommandWritten := by
  intro s w i rest hs hh hw
  rw [step_commandWrite hs hh, commandWrite, decodeCommand_of_decode hw]

/-- Settles O5: the engine has the turn, and runs the segment as the instruction it is. -/
theorem stepRunsTheSegmentAtSegPtr : Obligations.StepRunsTheSegmentAtSegPtr := by
  intro s seg hbusy hp hseg hwf
  refine ⟨fun hh => ?_, fun rest hh => ?_⟩
  · rw [step, turn, hh, exec_segmentInstr]
    exact engineTurn_segment hbusy hp hseg hwf
  · rw [step, turn, hh, exec_segmentInstr]
    exact engineTurn_segment (s := { s with host := rest }) hbusy hp hseg hwf

/-! ## The estimate (O40) -/

/-- A register read is the host's whole turn (R244). -/
theorem step_read {s : State} {offset : Nat} {width : AccessWidth} {rest : List HostMove}
    (hh : s.host = .read offset width :: rest) : step s = .next (hostRead offset width { s with host := rest }) := by
  rw [step, turn, hh]
  rfl

/-- The two words of a 64-bit value make it up again (R73). -/
theorem hiWord_loWord {v : Nat} (hv : v < 2 ^ 64) : (hiWord v).toNat * 2 ^ 32 + (loWord v).toNat = v := by
  rw [hiWord, loWord, BitVec.toNat_ofNat, BitVec.toNat_ofNat]
  omega

/-- The estimate fits two words (R37). -/
theorem estDur_lt (s : State) : estDur s < 2 ^ 64 := by
  have hsum : s.tScan.toNat + s.tBlank.toNat + 3 * s.tSync.toNat ≤ 5 * 2 ^ 32 := by omega
  calc estDur s ≤ 2 ^ 16 * (5 * 2 ^ 32) := Nat.mul_le_mul s.numLines.isLt.le hsum
    _ < 2 ^ 64 := by decide

/-- Settles O40: neither read changes a register of the descriptor. -/
theorem estDurReadsTheEstimate : Obligations.EstDurReadsTheEstimate := by
  intro s rest hh
  exact ⟨_, _, loWord (estDur s), hiWord (estDur s), step_read hh, step_read rfl, rfl, rfl, hiWord_loWord (estDur_lt s)⟩

/-! ## Reset (O41, O44) -/

/-- An image command fails straight after reset: there is no family yet (R49, R277). -/
theorem exec_encode_resetWith (p : Params) (c : EncCmd) (hc : c ≠ .hdr) :
    exec (encodeInstr c) (State.resetWith p) =
      .next (raiseError .unsupportedFormatOperation (acceptEncode c (State.resetWith p))) := by
  cases c with
  | hdr => contradiction
  | live => rfl
  | pcm => rfl

/-- Settles O41: the fields of `Block.reset`, and the checks of R277 on them. -/
theorem resetValues : Obligations.ResetValues := by
  intro p
  refine ⟨rfl, rfl, rfl, rfl, rfl, rfl, rfl, rfl, rfl, rfl, rfl, rfl, rfl, rfl, rfl, rfl, rfl, rfl, rfl, rfl, rfl, rfl,
    rfl, rfl, rfl, rfl, rfl, rfl, rfl, rfl, rfl, rfl, rfl, fun _ => rfl, ?_⟩
  rintro i (rfl | rfl)
  · exact ⟨_, exec_encode_resetWith p .live nofun, rfl, rfl⟩
  · exact ⟨_, exec_encode_resetWith p .pcm nofun, rfl, rfl⟩

/-- The default `PIXMEM_BYTES` is in the range of R5, whatever the free word (U10). -/
theorem default_pixmemBytes_lt : Params.default.pixmemBytes < 2 ^ 32 :=
  Nat.max_lt.mpr ⟨by decide, Config.pixmemWord.isLt⟩

/-- Settles O44: after reset no command runs, and every list is empty. -/
theorem resetMeetsTheInvariants : Obligations.ResetMeetsTheInvariants := by
  refine ⟨fun p hpos hlt => ?_, rfl, rfl, rfl, Nat.lt_of_lt_of_le Nat.one_pos (Nat.le_max_left _ _),
    default_pixmemBytes_lt⟩
  exact ⟨pixInv_resetWith hpos hlt, statusInv_resetWith p, List.forall_mem_nil _, List.forall_mem_nil _,
    List.forall_mem_nil _, seqInv_of_not_busy nofun, countInv_of_not_done nofun⟩

end Sys2Proof.Machine

namespace Sys2Proof.Machine

open Sys2Proof.Claims

/-! ## The frame of a segment (O34) -/

/-- A segment, or a sample of it, is rendered into a buffer whose length stays (R222, R223, R232). -/
theorem runSegment_outPcm_length (seg : Segment) (s : State) :
    (runSegment seg s).outPcm.length = s.outPcm.length := by
  obtain ⟨-, h⟩ | ⟨-, -, h⟩ | ⟨-, -, h⟩ := runSegment_cases seg s <;> rw [h]
  · rfl
  · exact renderSegment_length (synthOf s) seg (pcmBuf s)
  · obtain ⟨-, h⟩ | ⟨-, -, f, h⟩ := runPcmSample_cases seg s <;> rw [h]
    · rfl
    · rw [advanceSample_frame]
      exact List.length_set

/-- Settles O34: the frame of `runSegment` in each projection, and the length of the buffer it writes into. -/
theorem segmentFrame : Obligations.SegmentFrame := by
  intro s t seg h
  rw [exec_segmentInstr] at h
  obtain rfl : _ = t := Host.Outcome.next.inj h
  have hlen := runSegment_outPcm_length seg s
  obtain ⟨hr, hframe⟩ | ⟨hr, hframe⟩ := runSegment_frame seg s <;> rw [hframe] at hlen ⊢
  · exact ⟨rfl, fun hr' => absurd hr' hr, fun _ => ⟨rfl, rfl⟩⟩
  · exact ⟨rfl, fun _ => ⟨rfl, rfl, hlen⟩, fun hr' => absurd hr hr'⟩

/-! ## The timestamps of the setpoints (O26) -/

/-- A record of a segment is stamped with its start time (R198). -/
theorem stampOf_liveRecord (seg : Segment) (t : Time) : stampOf (liveRecord seg t) = t := by
  cases seg <;> rfl

theorem liveRecords_length (start : Time) (sched : List Segment) :
    (liveRecords start sched).length = sched.length := by
  induction sched generalizing start with
  | nil => rfl
  | cons seg rest ih => exact congrArg (· + 1) (ih _)

/-- Record `k` is that of segment `k` at the end of the segments before it (R198). -/
theorem liveRecords_getElem? (start : Time) (sched : List Segment) (k : Nat) :
    (liveRecords start sched)[k]? =
      (sched[k]?).map fun seg => liveRecord seg (start + totalDuration (sched.take k)) := by
  induction sched generalizing start k with
  | nil => rfl
  | cons seg rest ih =>
    cases k with
    | zero => rfl
    | succ k => simp [liveRecords, ih, totalDuration, Nat.add_assoc]

theorem totalDuration_take_succ {sched : List Segment} {k : Nat} {seg : Segment} (h : sched[k]? = some seg) :
    totalDuration (sched.take (k + 1)) = totalDuration (sched.take k) + segDuration seg := by
  rw [List.take_add_one, h, totalDuration_append]
  simp [totalDuration]

/-- An encode command that ends `DONE` at once has projected what it built (R9, R50). -/
theorem exec_encodeInstr_done {c : EncCmd} {s t : State} (hs : s.status ≠ .busy) (hv : s.view = .atomic)
    (h : exec (encodeInstr c) s = .next t) (hd : t.status = .done) :
    ∃ b, Built (acceptEncode c s) b ∧ t = projectAndEnd b := by
  rw [exec_encodeInstr_atomic c s hs hv, andThen_next] at h
  obtain ⟨b, hb, ht⟩ := h
  obtain ⟨e, -, rfl⟩ | hbuilt := checkAndBuild_cases hb
  · obtain rfl : _ = t := Host.Outcome.next.inj ht
    exact absurd hd nofun
  · have hbusy : b.status = .busy := by rw [hbuilt.frame]; rfl
    rw [projectIfBusy, if_pos hbusy] at ht
    exact ⟨b, hbuilt, (Host.Outcome.next.inj ht).symm⟩

/-- After a live command each segment of `SCHED` has its record, stamped from `T0` on (R198). -/
theorem exec_live_getElem? {c : EncCmd} {s t : State} (hc : c ≠ .pcm) (hs : s.status ≠ .busy) (hv : s.view = .atomic)
    (h : exec (encodeInstr c) s = .next t) (hd : t.status = .done) {k : Nat} (hk : k < t.sched.length) :
    t.outLive[k]? =
      (t.sched[k]?).map fun seg => liveRecord seg (startTime s + totalDuration (t.sched.take k)) := by
  obtain ⟨b, hb, rfl⟩ := exec_encodeInstr_done hs hv h hd
  have hrun : b.running ≠ .pcm := by rw [hb.frame]; exact hc
  have hempty : b.outLive = [] := by rw [hb.frame]; rfl
  have htime : b.tAcc = startTime s := by rw [hb.frame]; rfl
  rw [projectAndEnd_sched] at hk ⊢
  have hlt : k < (liveRecords (startTime s) b.sched).length := by rwa [liveRecords_length]
  rw [projectAndEnd_outLive, if_neg hrun, hempty, htime, List.nil_append, List.getElem?_append_left hlt,
    liveRecords_getElem?]

/-- Settles O26: from one record to the next the time advances by the duration of the segment between them. -/
theorem liveTimestampsDoNotDecrease : Obligations.LiveTimestampsDoNotDecrease := by
  intro s t k a b hs hv h hd hk ha hb
  have hrecord {i : Nat} (hi : i < t.sched.length) :=
    exec_live_getElem? (c := .live) nofun hs hv h hd hi
  have hseg := List.getElem?_eq_getElem (Nat.lt_of_succ_lt hk)
  rw [hrecord (Nat.lt_of_succ_lt hk), hseg] at ha
  rw [hrecord hk, List.getElem?_eq_getElem hk] at hb
  obtain rfl : _ = a := Option.some.inj ha
  obtain rfl : _ = b := Option.some.inj hb
  rw [stampOf_liveRecord, stampOf_liveRecord, totalDuration_take_succ hseg]
  refine ⟨Nat.add_le_add_left (Nat.le_add_right _ _) _, fun seg hseg' hpos => ?_⟩
  obtain rfl : _ = seg := Option.some.inj (hseg.symm.trans hseg')
  exact Nat.add_lt_add_left (Nat.lt_add_of_pos_right hpos) _

/-! ## Reading an unwritten colour byte (O12) -/

/-- A pixel of which one colour byte is unwritten has no colours (U3). -/
theorem pixColours_eq_none {m : List Host.Cell} {b k : Nat} (hk : k < 3) (h : memRead m (b + k) = none) :
    pixColours m b = none := by
  rw [← Option.not_isSome_iff_eq_none, pixColours_isSome_iff]
  intro hall
  simpa [h] using hall k hk

/-- A `MAP_*` writes from the colours of a pixel in bounds (R136). -/
theorem mapPixel_of_some (w : Nat → Nat → Nat → State → State) {s : State} {red green blue : Byte}
    (hb : pixInBounds s.pixLen.toNat (pixBase s.hPixels.toNat s.line.toNat s.hpos.toNat) = true)
    (hc : pixColours s.pix (pixBase s.hPixels.toNat s.line.toNat s.hpos.toNat) = some (red, green, blue)) :
    mapPixel w s = .next (flagsDone (w red.toNat green.toNat blue.toNat s)) := by
  rw [mapPixel, if_pos hb, hc]

theorem mapPixel_of_none (w : Nat → Nat → Nat → State → State) {s : State}
    (hb : pixInBounds s.pixLen.toNat (pixBase s.hPixels.toNat s.line.toNat s.hpos.toNat) = true)
    (hc : pixColours s.pix (pixBase s.hPixels.toNat s.line.toNat s.hpos.toNat) = none) :
    mapPixel w s = .fault .pixUnwritten := by
  rw [mapPixel, if_pos hb, hc]

theorem mapPixel_of_outOfBounds (w : Nat → Nat → Nat → State → State) {s : State}
    (hb : pixInBounds s.pixLen.toNat (pixBase s.hPixels.toNat s.line.toNat s.hpos.toNat) = false) :
    mapPixel w s = .next (raiseError .inputSizeMismatch s) := by
  rw [mapPixel, hb]
  rfl

/-- A `MAP_*` whose pixel is in bounds and has an unwritten colour byte is a fault (R136, U3). -/
theorem runCommand_mapPixel_unwritten (w : Nat → Nat → Nat → State → State) {s : State} (hs : s.status ≠ .busy)
    (hb : mapBase s + 3 < s.pixLen.toNat) {k : Nat} (hk : k < 3) (hnone : memRead s.pix (mapBase s + k) = none) :
    runCommand (mapPixel w) s = .fault .pixUnwritten := by
  rw [runCommand_accepted _ s hs]
  exact mapPixel_of_none w (s := accept s) (decide_eq_true hb) (pixColours_eq_none hk hnone)

/-- The checks of an image command whose image has an unwritten colour byte end in a fault where they pass (U3). -/
theorem checkAndBuild_unwritten {fam : Family} {s : State} (hc : s.running ≠ .hdr) (hp : ChecksPass s.running fam s)
    {l x k : Nat} (hl : l < s.numLines.toNat) (hx : x < s.hPixels.toNat) (hk : k < 3)
    (hnone : memRead s.pix (colourAddr s l x k) = none) : checkAndBuild s = .fault .pixUnwritten := by
  have he : encodeError s.running s = none := (encodeError_eq_none_iff _ s hc).mpr ⟨fam, hp⟩
  have hf : familyOf s.family = some fam := (familyOf_eq_some_iff s.family fam).mpr hp.1
  have hw : ¬ imageWritten s.pix s.numLines.toNat s.hPixels.toNat = true := fun hw => by
    have hsome := (imageWritten_iff _ _ _).mp hw l hl x hx k hk
    rw [show memRead s.pix (pixBase s.hPixels.toNat l x + k) = none from hnone] at hsome
    exact nomatch hsome
  rw [checkAndBuild, he]
  exact (build_of_familyOf _ fam s hc hf).trans (if_neg hw)

/-- Settles O12: a `MAP_*` stops at its pixel, an image command at its checks, in either view. -/
theorem unwrittenPixelFaults : Obligations.UnwrittenPixelFaults := by
  refine ⟨fun s i k hi hs hb hk hnone => ?_, fun s i c fam l x k hi hp hl hx hk hnone => ?_⟩
  · obtain rfl | rfl | rfl := hi
    · exact runCommand_mapPixel_unwritten writeGrey hs hb hk hnone
    · exact runCommand_mapPixel_unwritten writeRgb hs hb hk hnone
    · exact runCommand_mapPixel_unwritten writeYc hs hb hk hnone
  · obtain ⟨hc, rfl⟩ : c ≠ .hdr ∧ i = encodeInstr c := by
      obtain ⟨rfl, rfl⟩ | ⟨rfl, rfl⟩ := hi <;> exact ⟨nofun, rfl⟩
    refine ⟨fun hs hv => ?_, fun hs hphase hr hh => ?_⟩
    · rw [exec_encodeInstr_atomic c s hs hv,
        checkAndBuild_unwritten (s := acceptEncode c s) hc hp hl hx hk hnone]
      rfl
    · subst hr
      rw [step, turn, hh]
      simp only [engineTurn, hs, hphase, checkAndBuild_unwritten hc hp hl hx hk hnone]

/-! ## The alpha bytes (O58) -/

/-- Two pixel memories with the same colour bytes: they differ at alpha addresses alone (R61, R63). -/
def SameColours (m m' : List Host.Cell) : Prop := ∀ a, a % 4 ≠ 3 → memRead m' a = memRead m a

theorem sameColours_memWrite {a : Nat} (ha : a % 4 = 3) (m : List Host.Cell) (v : Byte) :
    SameColours m (memWrite m a v) :=
  fun b hb => memRead_memWrite_other m a b v fun h => hb (h ▸ ha)

/-- A colour byte of a pixel is at no alpha address (R61). -/
theorem pixBase_add_mod_four_ne (w l x : Nat) {k : Nat} (hk : k < 3) : (pixBase w l x + k) % 4 ≠ 3 := by
  have hbase : pixBase w l x = (l * w + x) * 4 := by rw [pixBase]; ring
  omega

section
variable {m m' : List Host.Cell} (h : SameColours m m')
include h

theorem SameColours.memRead_eq (w l x : Nat) {k : Nat} (hk : k < 3) :
    memRead m' (pixBase w l x + k) = memRead m (pixBase w l x + k) := h _ (pixBase_add_mod_four_ne w l x hk)

theorem SameColours.pixColours_eq (w l x : Nat) : pixColours m' (pixBase w l x) = pixColours m (pixBase w l x) := by
  rw [pixColours, h.memRead_eq w l x (k := 1) (by decide), h.memRead_eq w l x (k := 2) (by decide),
    show memRead m' (pixBase w l x) = _ from h.memRead_eq w l x (k := 0) (by decide)]
  rfl

theorem SameColours.imageWritten_eq (n w : Nat) : imageWritten m' n w = imageWritten m n w := by
  simp only [imageWritten, h.pixColours_eq]

theorem SameColours.rgbTrack_eq (num : Num) (w l : Nat) (c : Channel) :
    rgbTrack num m' w l c = rgbTrack num m w l c := by
  have hc : channelOffset c < 3 := by cases c <;> decide
  simp only [rgbTrack, pixByte, h.memRead_eq w l _ hc]

theorem SameColours.rawYc_eq (num : Num) (value : Nat → Nat → Nat → Rat) (w l x : Nat) :
    rawYc num value m' w l x = rawYc num value m w l x := by
  have hbyte {k : Nat} (hk : k < 3) : pixByte m' (pixBase w l x + k) = pixByte m (pixBase w l x + k) := by
    rw [pixByte, h.memRead_eq w l x hk, pixByte]
  rw [rawYc, valueAt, show pixByte m' (pixBase w l x) = _ from hbyte (k := 0) (by decide), hbyte (k := 1) (by decide),
    hbyte (k := 2) (by decide)]
  rfl

/-- No track of a prepared image depends on an alpha byte (R130, R170). -/
theorem SameColours.prepare_eq (num : Num) (fam : Family) (n w : Nat) :
    prepare num fam m' n w = prepare num fam m n w := by
  refine List.map_congr_left fun l _ => ?_
  cases fam with
  | martin => simp only [prepLine, h.rgbTrack_eq]
  | scottie => simp only [prepLine, h.rgbTrack_eq]
  | wrasse => simp only [prepLine, h.rgbTrack_eq]
  | pd => simp only [prepLine, lumaTrack, chromaTrack, h.rawYc_eq]

end

/-- `s` with the pixel memory `m`. -/
def withPix (m : List Host.Cell) (s : State) : State := { s with pix := m }

@[simp] theorem withPix_running (m : List Host.Cell) (s : State) : (withPix m s).running = s.running := rfl
@[simp] theorem withPix_view (m : List Host.Cell) (s : State) : (withPix m s).view = s.view := rfl
@[simp] theorem withPix_sub (m : List Host.Cell) (s : State) : (withPix m s).sub = s.sub := rfl
@[simp] theorem withPix_sampleRate (m : List Host.Cell) (s : State) : (withPix m s).sampleRate = s.sampleRate := rfl

/-! ### What reads no pixel at all -/

theorem advanceSample_withPix (m : List Host.Cell) (seg : Segment) (s : State) :
    advanceSample seg (withPix m s) = withPix m (advanceSample seg s) := by
  simp only [advanceSample, apply_ite (withPix m)]
  rfl

theorem runPcmSample_withPix (m : List Host.Cell) (seg : Segment) (s : State) :
    runPcmSample seg (withPix m s) = withPix m (runPcmSample seg s) := by
  by_cases hc : segSamples s.sampleRate.toNat seg = 0
  · simp only [runPcmSample, withPix_sampleRate, hc, if_true]
    rfl
  · simp only [runPcmSample, withPix_sampleRate, withPix_sub, hc, if_false]
    cases (segFreqs seg)[s.sub]? with
    | none => rfl
    | some f => exact advanceSample_withPix m seg (withPcm (renderOne (synthOf s) f (pcmBuf s)) s)

/-- A segment is projected from its own operands and the registers (R198, R222). -/
theorem runSegment_withPix (m : List Host.Cell) (seg : Segment) (s : State) :
    runSegment seg (withPix m s) = withPix m (runSegment seg s) := by
  simp only [runSegment, withPix_running, withPix_view]
  split
  · rfl
  · rfl
  · split
    · rfl
    · rfl
    · exact runPcmSample_withPix m seg s

theorem finish_withPix (m : List Host.Cell) (s : State) : finish (withPix m s) = withPix m (finish s) := by
  rw [finish_eq, finish_eq]
  rfl

/-- The projection reads `SCHED` and no pixel (R43). -/
theorem projectAndEnd_withPix (m : List Host.Cell) (s : State) :
    projectAndEnd (withPix m s) = withPix m (projectAndEnd s) := by
  by_cases hr : s.running = .pcm
  · rw [projectAndEnd_of_pcm hr, projectAndEnd_of_pcm (s := withPix m s) hr, ← finish_withPix]
    rfl
  · rw [projectAndEnd_of_live hr, projectAndEnd_of_live (s := withPix m s) hr, ← finish_withPix]
    rfl

/-! ### What reads colour bytes alone -/

section
variable {m : List Host.Cell} {s t : State}

/-- An image is built from its colour bytes (R170, R191). -/
theorem builtImage_withPix (h : SameColours s.pix m) (c : EncCmd) (fam : Family) :
    builtImage c fam (withPix m s) = withPix m (builtImage c fam s) := by
  have hprep : prepared fam (withPix m s) = prepared fam s := h.prepare_eq _ _ _ _
  have hsched : schedule fam (withPix m s) = schedule fam s := by
    rw [schedule, hprep]
    rfl
  rw [builtImage, hprep, hsched, builtImage, allocatePcm_eq, allocatePcm_eq]
  rfl

theorem checkAndBuild_withPix (h : SameColours s.pix m) (ht : checkAndBuild s = .next t) :
    checkAndBuild (withPix m s) = .next (withPix m t) := by
  obtain ⟨e, he, rfl⟩ | ⟨hr, rfl⟩ | ⟨hr, he, fam, hf, hw, rfl⟩ := checkAndBuild_next s t ht
  · rw [checkAndBuild, show encodeError (withPix m s).running (withPix m s) = some e from he]
    rfl
  · rw [checkAndBuild, show (withPix m s).running = .hdr from hr]
    rfl
  · have hw' : imageWritten (withPix m s).pix (withPix m s).numLines.toNat (withPix m s).hPixels.toNat = true :=
      (h.imageWritten_eq _ _).trans hw
    rw [checkAndBuild_of_checksPass fam (withPix m s) hr (checksPass_of_encodeError hr he hf) hw',
      builtImage_withPix h]
    rfl

theorem encodeBody_withPix (h : SameColours s.pix m) {c : EncCmd} (ht : encodeBody c s = .next t) :
    encodeBody c (withPix m s) = .next (withPix m t) := by
  simp only [encodeBody, withPix_view] at ht ⊢
  split at ht
  · obtain ⟨b, hb, ht⟩ := (andThen_next _ _ _).mp ht
    refine (andThen_next _ _ _).mpr
      ⟨withPix m b, checkAndBuild_withPix (s := { s with running := c, phase := .checks }) h hb, ?_⟩
    rw [projectIfBusy] at ht ⊢
    split at ht
    · cases ht
      exact (if_pos ‹_›).trans (congrArg Host.Outcome.next (projectAndEnd_withPix m b))
    · cases ht
      exact if_neg ‹_›
  · cases ht; rfl
  · cases ht; rfl

/-- A `MAP_*` reads the three colour bytes of its pixel (R63, R136). -/
theorem mapPixel_withPix (h : SameColours s.pix m) {w : Nat → Nat → Nat → State → State}
    (hw : ∀ red green blue, w red green blue (withPix m s) = withPix m (w red green blue s))
    (ht : mapPixel w s = .next t) : mapPixel w (withPix m s) = .next (withPix m t) := by
  obtain ⟨hb, red, green, blue, hc, rfl⟩ | ⟨hb, rfl⟩ := mapPixel_next w s t ht
  · rw [← h.pixColours_eq] at hc
    exact (mapPixel_of_some w (s := withPix m s) hb hc).trans
      (congrArg (fun u => Host.Outcome.next (flagsDone u)) (hw _ _ _))
  · exact mapPixel_of_outOfBounds w (s := withPix m s) hb

/-- Acceptance reads no pixel (R240). -/
theorem runCommand_withPix {f : State → Host.Outcome State Fault Refusal}
    (hf : f (accept s) = .next t → f (withPix m (accept s)) = .next (withPix m t)) (ht : runCommand f s = .next t) :
    runCommand f (withPix m s) = .next (withPix m t) := by
  obtain ⟨hs, rfl⟩ | ⟨hs, ht⟩ := (runCommand_next f s t).mp ht
  · exact if_pos hs
  · exact (runCommand_accepted f (withPix m s) hs).trans (hf ht)

/-- Every instruction does the same from the same colour bytes (R63, R130). -/
theorem exec_withPix (h : SameColours s.pix m) {i : Instr} (ht : exec i s = .next t) :
    exec i (withPix m s) = .next (withPix m t) := by
  cases i with
  | clear => exact runCommand_withPix (f := fun a => .next (flagsIdle a)) (fun hf => by cases hf; rfl) ht
  | mapGrey => exact runCommand_withPix (mapPixel_withPix (s := accept s) h fun _ _ _ => rfl) ht
  | mapRgb => exact runCommand_withPix (mapPixel_withPix (s := accept s) h fun _ _ _ => rfl) ht
  | mapYc => exact runCommand_withPix (mapPixel_withPix (s := accept s) h fun _ _ _ => rfl) ht
  | encHdr => exact runCommand_withPix (encodeBody_withPix (s := accept s) h) ht
  | encLive => exact runCommand_withPix (encodeBody_withPix (s := accept s) h) ht
  | encPcm => exact runCommand_withPix (encodeBody_withPix (s := accept s) h) ht
  | hold f d => cases ht; exact congrArg Host.Outcome.next (runSegment_withPix m _ s)
  | curve fs d => cases ht; exact congrArg Host.Outcome.next (runSegment_withPix m _ s)
  | set f t => cases ht; rfl
  | curveAt fs t d => cases ht; rfl
  | span start stop => cases ht; rfl

end

/-- Settles O58: a write to an alpha address leaves the colour bytes, and every instruction reads those alone. -/
theorem alphaIsNeverRead : Obligations.AlphaIsNeverRead :=
  fun s _ _ _ v ha h => exec_withPix (sameColours_memWrite ha s.pix v) h

end Sys2Proof.Machine

namespace Sys2Proof

/-! ## The parts of an encoding (R95) -/

/-- A Time field gives back a time of at most 64 bits. -/
theorem takeTime_timeFields {t : Nat} (ht : t < 2 ^ 64) (rest : List Field) :
    takeTime (timeFields t ++ rest) = .ok (t, rest) := by
  have hsum : (BitVec.ofNat 32 (t / 2 ^ 32)).toNat * 2 ^ 32 + (BitVec.ofNat 32 t).toNat = t := by
    rw [BitVec.toNat_ofNat, BitVec.toNat_ofNat]
    omega
  exact congrArg (fun v => Except.ok (v, rest)) hsum

theorem takeFreqs_freqFields (fs : List Freq) (rest : List Field) :
    takeFreqs fs.length (freqFields fs ++ rest) = .ok (fs, rest) := by
  induction fs with
  | nil => rfl
  | cons f fs ih =>
    simp only [freqFields] at ih
    simp only [freqFields, List.map_cons, List.cons_append, List.length_cons, takeFreqs, takeFreq, ih]

theorem eq_of_takeWord {fields rest : List Field} {w : Word} (h : takeWord fields = .ok (w, rest)) :
    fields = .word w :: rest := by
  unfold takeWord at h
  split at h <;> cases h
  rfl

theorem eq_of_takeFreq {fields rest : List Field} {f : Freq} (h : takeFreq fields = .ok (f, rest)) :
    fields = .freq f :: rest := by
  unfold takeFreq at h
  split at h <;> cases h
  rfl

/-- The two words of a time are its Time field. -/
theorem timeFields_of_words (lo hi : Word) : timeFields (hi.toNat * 2 ^ 32 + lo.toNat) = [.word lo, .word hi] := by
  have hlo : BitVec.ofNat 32 (hi.toNat * 2 ^ 32 + lo.toNat) = lo := by bv_omega
  have hhi : BitVec.ofNat 32 ((hi.toNat * 2 ^ 32 + lo.toNat) / 2 ^ 32) = hi := by bv_omega
  rw [timeFields, hlo, hhi]

theorem eq_of_takeTime {fields rest : List Field} {t : Time} (h : takeTime fields = .ok (t, rest)) :
    fields = timeFields t ++ rest := by
  unfold takeTime at h
  split at h
  · cases h
  split at h
  · cases h
  · rename_i hlo _ _ _ hhi
    cases h
    rw [eq_of_takeWord hlo, eq_of_takeWord hhi, timeFields_of_words]
    rfl

theorem eq_of_takeFreqs {k : Nat} {fields rest : List Field} {fs : List Freq}
    (h : takeFreqs k fields = .ok (fs, rest)) : fs.length = k ∧ fields = freqFields fs ++ rest := by
  induction k generalizing fields fs with
  | zero => cases h; exact ⟨rfl, rfl⟩
  | succ k ih =>
    unfold takeFreqs at h
    split at h
    · cases h
    split at h
    · cases h
    · rename_i hf _ _ _ hfs
      cases h
      obtain ⟨hk, hrest⟩ := ih hfs
      exact ⟨congrArg (· + 1) hk, (eq_of_takeFreq hf).trans (congrArg _ hrest)⟩

/-! ## The header word (R95) -/

/-- A header word holds its tag and its count in their bits, and zero between them. -/
theorem headerWord_fields {tag k : Nat} (htag : tag < 16) (hk : k < 2 ^ 16) :
    headerTag (headerWord tag k) = tag ∧ headerZero (headerWord tag k) = 0 ∧ headerCount (headerWord tag k) = k := by
  have hnat : (headerWord tag k).toNat = tag * 2 ^ 28 + k := by
    rw [headerWord, BitVec.toNat_ofNat]
    omega
  simp only [headerTag, headerZero, headerCount, hnat]
  omega

/-- With bits [27:16] zero a header is its tag and its count. -/
theorem eq_headerWord {h : Word} (hz : headerZero h = 0) : h = headerWord (headerTag h) (headerCount h) := by
  unfold headerZero at hz
  rw [headerWord, headerTag, headerCount]
  bv_omega

/-- What follows the check of bits [27:16] (R95): a header whose tag is known is its tag and its count. -/
theorem headerWord_of_checked {w : Word} {tag : Nat} {body : Except DecodeError (Instr × List Field)}
    {x : Instr × List Field} (htag : headerTag w = tag)
    (h : (if headerZero w = 0 then body else .error .reservedBits) = .ok x) :
    w = headerWord tag (headerCount w) ∧ body = .ok x := by
  split at h
  · rename_i hz
    exact ⟨htag ▸ eq_headerWord hz, h⟩
  · cases h

/-- The same for a header that has no count (R98). -/
theorem headerWord_of_checked_withoutCount {w : Word} {tag : Nat} {body : Except DecodeError (Instr × List Field)}
    {x : Instr × List Field} (htag : headerTag w = tag)
    (h : (if headerZero w = 0 then withoutCount w body else .error .reservedBits) = .ok x) :
    w = headerWord tag 0 ∧ body = .ok x := by
  obtain ⟨hw, h⟩ := headerWord_of_checked htag h
  unfold withoutCount at h
  split at h
  · rename_i hk
    rw [hk] at hw
    exact ⟨hw, h⟩
  · cases h

/-! ## From the encoding to the instruction (O1) -/

section
variable {fs : List Freq} {f : Freq} {d t start stop : Nat}

theorem wellFormed_hold_iff : (Instr.hold f d).WellFormed ↔ d < 2 ^ 64 := by simp [Instr.WellFormed, Instr.flaw]

theorem wellFormed_set_iff : (Instr.set f t).WellFormed ↔ t < 2 ^ 64 := by simp [Instr.WellFormed, Instr.flaw]

theorem wellFormed_span_iff : (Instr.span start stop).WellFormed ↔ start < 2 ^ 64 ∧ stop < 2 ^ 64 := by
  simp [Instr.WellFormed, Instr.flaw]

theorem wellFormed_curve_iff : (Instr.curve fs d).WellFormed ↔ d < 2 ^ 64 ∧ curveFlaw fs = none := by
  simp [Instr.WellFormed, Instr.flaw, ite_eq_iff]

theorem wellFormed_curveAt_iff :
    (Instr.curveAt fs t d).WellFormed ↔ (t < 2 ^ 64 ∧ d < 2 ^ 64) ∧ curveFlaw fs = none := by
  simp [Instr.WellFormed, Instr.flaw, ite_eq_iff]

/-- A well-formed curve's `K` fits its 16 bits (R95, R96). -/
theorem length_lt_of_curveFlaw (h : curveFlaw fs = none) : fs.length < 2 ^ 16 := by
  unfold curveFlaw at h
  split_ifs at h
  omega

end

theorem decodeFrom_curveHeader {k : Nat} (hk : k < 2 ^ 16) (fields : List Field) :
    decodeFrom (headerWord 0x2 k) fields = decodeCurve k fields := by
  obtain ⟨htag, hzero, hcount⟩ := headerWord_fields (tag := 0x2) (by decide) hk
  simp only [decodeFrom, htag, hzero, hcount, if_true]

theorem decodeFrom_curveAtHeader {k : Nat} (hk : k < 2 ^ 16) (fields : List Field) :
    decodeFrom (headerWord 0x9 k) fields = decodeCurveAt k fields := by
  obtain ⟨htag, hzero, hcount⟩ := headerWord_fields (tag := 0x9) (by decide) hk
  simp only [decodeFrom, htag, hzero, hcount, if_true]

/-- Settles O1: a command's word and a header with no count are read as they stand; a curve's header gives its tag and
its count back. -/
theorem encodeThenDecode : Obligations.EncodeThenDecode := by
  intro i rest hi
  cases i with
  | clear => rfl
  | mapGrey => rfl
  | mapRgb => rfl
  | mapYc => rfl
  | encHdr => rfl
  | encLive => rfl
  | encPcm => rfl
  | hold f d =>
    change decodeHold (.freq f :: (timeFields d ++ rest)) = _
    simp only [decodeHold, takeFreq, takeTime_timeFields (wellFormed_hold_iff.mp hi)]
  | set f t =>
    change decodeSet (.freq f :: (timeFields t ++ rest)) = _
    simp only [decodeSet, takeFreq, takeTime_timeFields (wellFormed_set_iff.mp hi)]
  | span start stop =>
    obtain ⟨hstart, hstop⟩ := wellFormed_span_iff.mp hi
    change decodeSpan (timeFields start ++ (timeFields stop ++ rest)) = _
    simp only [decodeSpan, takeTime_timeFields hstart, takeTime_timeFields hstop]
  | curve fs d =>
    obtain ⟨hd, hfs⟩ := wellFormed_curve_iff.mp hi
    change decodeFrom (headerWord 0x2 fs.length) (timeFields d ++ freqFields fs ++ rest) = _
    rw [decodeFrom_curveHeader (length_lt_of_curveFlaw hfs), List.append_assoc]
    simp only [decodeCurve, takeTime_timeFields hd, takeFreqs_freqFields]
  | curveAt fs t d =>
    obtain ⟨⟨ht, hd⟩, hfs⟩ := wellFormed_curveAt_iff.mp hi
    change decodeFrom (headerWord 0x9 fs.length) (timeFields t ++ (timeFields d ++ freqFields fs) ++ rest) = _
    rw [decodeFrom_curveAtHeader (length_lt_of_curveFlaw hfs), List.append_assoc, List.append_assoc]
    simp only [decodeCurveAt, takeTime_timeFields ht, takeTime_timeFields hd, takeFreqs_freqFields]

/-! ## From the instruction to the encoding (O2) -/

section
variable {fields rest : List Field} {i : Instr} {k : Nat}

theorem encode_of_decodeHold (h : decodeHold fields = .ok (i, rest)) :
    .word (headerWord 0x1 0) :: fields = encode i ++ rest := by
  unfold decodeHold at h
  split at h
  · cases h
  split at h
  · cases h
  · rename_i hf _ _ _ hd
    cases h
    rw [eq_of_takeFreq hf, eq_of_takeTime hd]
    rfl

theorem encode_of_decodeSet (h : decodeSet fields = .ok (i, rest)) :
    .word (headerWord 0x8 0) :: fields = encode i ++ rest := by
  unfold decodeSet at h
  split at h
  · cases h
  split at h
  · cases h
  · rename_i hf _ _ _ ht
    cases h
    rw [eq_of_takeFreq hf, eq_of_takeTime ht]
    rfl

theorem encode_of_decodeSpan (h : decodeSpan fields = .ok (i, rest)) :
    .word (headerWord 0xA 0) :: fields = encode i ++ rest := by
  unfold decodeSpan at h
  split at h
  · cases h
  split at h
  · cases h
  · rename_i hstart _ _ _ hstop
    cases h
    rw [eq_of_takeTime hstart, eq_of_takeTime hstop]
    rfl

theorem encode_of_decodeCurve (h : decodeCurve k fields = .ok (i, rest)) :
    .word (headerWord 0x2 k) :: fields = encode i ++ rest := by
  unfold decodeCurve at h
  split at h
  · cases h
  split at h
  · cases h
  · rename_i hd _ _ _ hfs
    cases h
    obtain ⟨rfl, hrest⟩ := eq_of_takeFreqs hfs
    rw [eq_of_takeTime hd, hrest]
    rfl

theorem encode_of_decodeCurveAt (h : decodeCurveAt k fields = .ok (i, rest)) :
    .word (headerWord 0x9 k) :: fields = encode i ++ rest := by
  unfold decodeCurveAt at h
  split at h
  · cases h
  split at h
  · cases h
  split at h
  · cases h
  · rename_i ht _ _ _ hd _ _ _ hfs
    cases h
    obtain ⟨rfl, hrest⟩ := eq_of_takeFreqs hfs
    rw [eq_of_takeTime ht, eq_of_takeTime hd, hrest]
    rfl

theorem encode_of_decodeCommand {w : Word} (h : decodeCommand w = some i) : encode i = [.word w] := by
  unfold decodeCommand at h
  split at h
  case h_8 => cases h
  all_goals
    rename_i hn
    cases h
    exact congrArg (fun v => [Field.word v]) (BitVec.eq_of_toNat_eq hn.symm)

theorem encode_of_decodeFrom {w : Word} (h : decodeFrom w fields = .ok (i, rest)) :
    .word w :: fields = encode i ++ rest := by
  unfold decodeFrom at h
  split at h
  · split at h
    · rename_i hw
      cases h
      rw [encode_of_decodeCommand hw]
      rfl
    · cases h
  · obtain ⟨hw, h⟩ := headerWord_of_checked_withoutCount ‹_› h
    rw [hw, encode_of_decodeHold h]
  · obtain ⟨hw, h⟩ := headerWord_of_checked ‹_› h
    rw [hw, encode_of_decodeCurve h]
  · obtain ⟨hw, h⟩ := headerWord_of_checked_withoutCount ‹_› h
    rw [hw, encode_of_decodeSet h]
  · obtain ⟨hw, h⟩ := headerWord_of_checked ‹_› h
    rw [hw, encode_of_decodeCurveAt h]
  · obtain ⟨hw, h⟩ := headerWord_of_checked_withoutCount ‹_› h
    rw [hw, encode_of_decodeSpan h]
  · cases h

end

/-- Settles O2: by the tag of the header word, each operand is the field or the fields it was read from. -/
theorem decodeThenEncode : Obligations.DecodeThenEncode := by
  intro fields rest i h
  unfold decode at h
  split at h
  · exact encode_of_decodeFrom h
  · cases h
  · cases h

/-! ## Words of the encoding tables (O3) -/

/-- Settles O3: each stream of words is decoded by evaluation. -/
theorem decodesWrittenOutWords : Obligations.DecodesWrittenOutWords :=
  ⟨rfl, rfl, rfl, rfl, rfl, rfl, rfl, rfl⟩

end Sys2Proof

namespace Sys2Proof.Machine

open Sys2Proof.Claims

/-! ## The records of `OUT_LIVE` (O50) -/

/-- Every record of a list is a well-formed instruction (R96). -/
def RecordsWellFormed (rs : List Record) : Prop := ∀ r ∈ rs, (recordInstr r).WellFormed

theorem recordsWellFormed_nil : RecordsWellFormed [] := List.forall_mem_nil _

theorem recordsWellFormed_append {rs : List Record} {r : Record} (hrs : RecordsWellFormed rs)
    (hr : (recordInstr r).WellFormed) : RecordsWellFormed (rs ++ [r]) :=
  List.forall_mem_append.mpr ⟨hrs, List.forall_mem_singleton.mpr hr⟩

/-- A well-formed segment's record is well-formed where its start time fits (R96, R198). -/
theorem liveRecord_wellFormed {seg : Segment} {t : Nat} (hseg : (segmentInstr seg).WellFormed) (ht : t < 2 ^ 64) :
    (recordInstr (liveRecord seg t)).WellFormed := by
  cases seg with
  | hold f d => exact wellFormed_set_iff.mpr ht
  | curve fs d =>
    obtain ⟨hd, hfs⟩ := wellFormed_curve_iff.mp hseg
    exact wellFormed_curveAt_iff.mpr ⟨⟨ht, hd⟩, hfs⟩

/-- So are the records of a whole schedule where its end time fits. -/
theorem liveRecords_wellFormed {sched : List Segment} {start : Nat}
    (hsched : ∀ seg ∈ sched, (segmentInstr seg).WellFormed) (hstop : start + totalDuration sched < 2 ^ 64) :
    RecordsWellFormed (liveRecords start sched) := by
  induction sched generalizing start with
  | nil => exact recordsWellFormed_nil
  | cons seg rest ih =>
    obtain ⟨hseg, hrest⟩ := List.forall_mem_cons.mp hsched
    have hstart : start < 2 ^ 64 := Nat.lt_of_le_of_lt (Nat.le_add_right _ _) hstop
    have htail : start + segDuration seg + totalDuration rest < 2 ^ 64 := by rwa [Nat.add_assoc]
    exact List.forall_mem_cons.mpr ⟨liveRecord_wellFormed hseg hstart, ih hrest htail⟩

/-- A start time and a schedule in the bounds of R29 and R36 end within 64 bits (R41). -/
theorem startTime_add_lt {s : State} {d : Nat} (hd : d < 2 ^ 52) : startTime s + d < 2 ^ 64 :=
  (Nat.add_lt_add (startTime_lt s) hd).trans (by decide)

/-- At once, a live command's records run from `T0` to the end of its schedule (R198, R200). -/
theorem recordInv_projectAndEnd {c : EncCmd} {s b : State} (hb : Built (acceptEncode c s) b) :
    (projectAndEnd b).RecordInv := by
  have hempty : b.outLive = [] := by rw [hb.frame]; rfl
  have htime : b.tAcc = startTime b := by rw [hb.frame]; rfl
  have hstop := startTime_add_lt (s := b) hb.duration_lt
  rw [State.RecordInv, projectAndEnd_outLive, hempty, htime]
  split
  · exact recordsWellFormed_nil
  · refine recordsWellFormed_append (liveRecords_wellFormed hb.wellFormed hstop) (wellFormed_span_iff.mpr ⟨?_, hstop⟩)
    exact (startTime_lt b).trans (by decide)

theorem recordInv_commandTo {s t : State} (h : CommandTo s t) : t.RecordInv := by
  cases h with
  | cleared => exact recordsWellFormed_nil
  | mapped f0 f1 f2 => exact recordsWellFormed_nil
  | failed e c p he => exact recordsWellFormed_nil
  | started c => exact recordsWellFormed_nil
  | encoded c b hb => exact recordInv_projectAndEnd hb

/-- A segment of a live command adds its own record (R198). -/
theorem recordInv_runSegment {s : State} {seg : Segment} (hs : s.RecordInv) (hacc : s.tAcc < 2 ^ 64)
    (hwf : (segmentInstr seg).WellFormed) : (runSegment seg s).RecordInv := by
  obtain ⟨-, h⟩ | ⟨-, -, h⟩ | ⟨-, -, h⟩ := runSegment_cases seg s <;> rw [h]
  · exact recordsWellFormed_append hs (liveRecord_wellFormed hwf hacc)
  · exact hs
  · rw [runPcmSample_frame]
    exact hs

/-- The end of a live command adds its `SPAN` (R200). -/
theorem recordInv_finish {s : State} (hs : s.RecordInv) (hacc : s.tAcc < 2 ^ 64) : (finish s).RecordInv := by
  rw [finish_eq, State.RecordInv]
  split
  · exact hs
  · exact recordsWellFormed_append hs (wellFormed_span_iff.mpr ⟨(startTime_lt s).trans (by decide), hacc⟩)

theorem recordInv_engineTo {s t : State} (hr : s.RecordInv) (hwidth : s.WidthInv) (h : EngineTo s t) : t.RecordInv := by
  cases h with
  | access _ h => rw [h.frame]; exact hr
  | reset => exact recordsWellFormed_nil
  | command _ _ h => exact recordInv_commandTo h
  | failed e he => exact recordsWellFormed_nil
  | built _ _ _ hb => rw [hb.frame]; exact hr
  | segment seg hbusy hp _ hwf =>
    obtain ⟨-, -, -, -, hacc⟩ := hwidth hbusy hp
    exact recordInv_runSegment hr hacc hwf
  | finish hbusy hp _ =>
    obtain ⟨-, -, -, -, hacc⟩ := hwidth hbusy hp
    exact recordInv_finish hr hacc

/-- Settles O50: a record is a segment of a well-formed schedule or the closing `SPAN`, stamped with a `T_ACC` that fits
64 bits. -/
theorem stepKeepsRecordsWellFormed : Obligations.StepKeepsRecordsWellFormed := by
  intro s t hsched hs hr h
  obtain ⟨host, ht⟩ := step_engineTo h
  exact recordInv_engineTo (s := { s with host := host }) hr (engineCountersFitTheirWidths _ hsched hs) ht

end Sys2Proof.Machine

namespace Sys2Proof.Machine

open Sys2Proof.Claims

/-! ## What a `MAP_*` command answers (O9, O10, O11) -/

/-- A `MAP_*` whose pixel is out of bounds raises `InputSizeMismatch` (R136, R274). -/
theorem runCommand_mapPixel_outOfBounds (w : Nat → Nat → Nat → State → State) {s : State} (hs : s.status ≠ .busy)
    (hb : s.pixLen.toNat ≤ mapBase s + 3) :
    runCommand (mapPixel w) s = .next (cleared .error .inputSizeMismatch s) := by
  rw [runCommand_accepted _ s hs]
  exact mapPixel_of_outOfBounds w (s := accept s) (decide_eq_false (Nat.not_lt.mpr hb))

/-- The colours of a pixel whose three bytes are written (R61). -/
theorem pixColours_of_coloursAt {s : State} {a : Nat} {red green blue : Byte} (h : coloursAt s a red green blue) :
    pixColours s.pix a = some (red, green, blue) := by
  obtain ⟨hred, hgreen, hblue⟩ := h
  rw [pixColours, hred, hgreen, hblue]

/-- A `MAP_*` whose pixel is in bounds and written writes from its colours and succeeds (R136). -/
theorem runCommand_mapPixel_written (w : Nat → Nat → Nat → State → State) {s : State} {red green blue : Byte}
    (hs : s.status ≠ .busy) (hb : mapBase s + 3 < s.pixLen.toNat) (hc : coloursAt s (mapBase s) red green blue) :
    runCommand (mapPixel w) s = .next (flagsDone (w red.toNat green.toNat blue.toNat (accept s))) := by
  rw [runCommand_accepted _ s hs]
  exact mapPixel_of_some w (s := accept s) (decide_eq_true hb) (pixColours_of_coloursAt hc)

/-! ## The mappings in the spec's notation (R131 to R134) -/

theorem hz_eq (v : Rat) : hz v = v * (31372549 / 10000000) + 1500 := add_comm _ _

/-- `Grey` is `Hz` of the weighted mean of the channels (R132). -/
theorem grey_eq_hz (red green blue : Nat) :
    grey red green blue = hz ((299 * red + 587 * green + 114 * blue : Nat) / 1000) := by
  rw [hz_eq, grey, kSpan, fBase]
  push_cast
  ring

theorem lumaValue_eq (red green blue : Nat) :
    lumaValue red green blue =
      6 + 3906 / 1000000 * (65738 * (red : Rat) + 129057 * (green : Rat) + 25064 * (blue : Rat)) / 1000 := by
  rw [lumaValue, yOff, cYC]
  ring

theorem redChromaValue_eq (red green blue : Nat) :
    redChromaValue red green blue =
      128 + 3906 / 1000000 * (112439 * (red : Rat) - 94154 * (green : Rat) - 18285 * (blue : Rat)) / 1000 := by
  rw [redChromaValue, cOff, cYC]
  ring

theorem blueChromaValue_eq (red green blue : Nat) :
    blueChromaValue red green blue =
      128 + 3906 / 1000000 * (112439 * (blue : Rat) - 37945 * (red : Rat) - 74494 * (green : Rat)) / 1000 := by
  rw [blueChromaValue, cOff, cYC]
  ring

/-- Settles O9: the common course of `MAP_*` with `writeGrey`, and R132's formula as `grey`. -/
theorem mapGreyWritesFreq0 : Obligations.MapGreyWritesFreq0 := by
  refine ⟨rfl, fun s hs hb => runCommand_mapPixel_outOfBounds writeGrey hs hb, fun s red green blue hs hb hc => ?_⟩
  rw [← hz_eq, ← grey_eq_hz]
  exact runCommand_mapPixel_written writeGrey hs hb hc

/-- Settles O10: the common course of `MAP_*` with `writeRgb`, and R133's formula as `hz` of each channel. -/
theorem mapRgbWritesThreeChannels : Obligations.MapRgbWritesThreeChannels := by
  refine ⟨rfl, fun s hs hb => runCommand_mapPixel_outOfBounds writeRgb hs hb, fun s red green blue hs hb hc => ?_⟩
  simp only [← hz_eq]
  exact runCommand_mapPixel_written writeRgb hs hb hc

/-- Settles O11: the common course of `MAP_*` with `writeYc`, and R134's formulas as `hz` of the three values. -/
theorem mapYcWritesLumaAndChroma : Obligations.MapYcWritesLumaAndChroma := by
  refine ⟨rfl, fun s hs hb => runCommand_mapPixel_outOfBounds writeYc hs hb, fun s red green blue hs hb hc => ?_⟩
  simp only [freqOf, ← lumaValue_eq, ← redChromaValue_eq, ← blueChromaValue_eq]
  exact runCommand_mapPixel_written writeYc hs hb hc

/-! ## The ranges of the mappings (O13) -/

theorem hz_mono : Monotone hz := by
  intro v v' h
  rw [hz_eq, hz_eq]
  linarith

/-- `Grey` rises with every channel (R132). -/
theorem grey_mono {r r' g g' b b' : Nat} (hr : r ≤ r') (hg : g ≤ g') (hb : b ≤ b') : grey r g b ≤ grey r' g' b' := by
  rw [grey_eq_hz, grey_eq_hz]
  have hsum : 299 * r + 587 * g + 114 * b ≤ 299 * r' + 587 * g' + 114 * b' := by omega
  exact hz_mono (div_le_div_of_nonneg_right (Nat.cast_le.mpr hsum) (by norm_num))

/-- `Y` rises with every channel (R134). -/
theorem lumaValue_mono {r r' g g' b b' : Nat} (hr : r ≤ r') (hg : g ≤ g') (hb : b ≤ b') :
    lumaValue r g b ≤ lumaValue r' g' b' := by
  qify at hr hg hb
  rw [lumaValue_eq, lumaValue_eq]
  linarith

/-- `R-Y` rises with red and falls with green and blue (R134). -/
theorem redChromaValue_mono {r r' g g' b b' : Nat} (hr : r ≤ r') (hg : g' ≤ g) (hb : b' ≤ b) :
    redChromaValue r g b ≤ redChromaValue r' g' b' := by
  qify at hr hg hb
  rw [redChromaValue_eq, redChromaValue_eq]
  linarith

/-- `B-Y` rises with blue and falls with red and green (R134). -/
theorem blueChromaValue_mono {r r' g g' b b' : Nat} (hr : r' ≤ r) (hg : g' ≤ g) (hb : b ≤ b') :
    blueChromaValue r g b ≤ blueChromaValue r' g' b' := by
  qify at hr hg hb
  rw [blueChromaValue_eq, blueChromaValue_eq]
  linarith

/-! ### A grey pixel -/

theorem grey_self (v : Nat) : grey v v v = hz v := by
  rw [grey_eq_hz]
  congr 1
  push_cast
  ring

theorem redChromaValue_self (v : Nat) : redChromaValue v v v = 128 := by
  rw [redChromaValue_eq]
  ring

theorem blueChromaValue_self (v : Nat) : blueChromaValue v v v = 128 := by
  rw [blueChromaValue_eq]
  ring

theorem hz_neutral : hz 128 = 148560049 / 78125 := by norm_num [hz_eq]

/-! ### The extremes of R135's table -/

theorem hz_zero : hz (0 : Nat) = 1500 := by norm_num [hz_eq]

theorem hz_max : hz (255 : Nat) = 22999999995 / 10000000 := by norm_num [hz_eq]

theorem lumaValue_min : lumaValue 0 0 0 = 6 := by norm_num [lumaValue_eq]

theorem lumaValue_max : lumaValue 255 255 255 = 22498615977 / 100000000 := by norm_num [lumaValue_eq]

theorem redChromaValue_min : redChromaValue 0 255 255 = 1600738283 / 100000000 := by norm_num [redChromaValue_eq]

theorem redChromaValue_max : redChromaValue 255 0 0 = 23999261717 / 100000000 := by norm_num [redChromaValue_eq]

theorem blueChromaValue_min : blueChromaValue 255 255 0 = 1600738283 / 100000000 := by norm_num [blueChromaValue_eq]

theorem blueChromaValue_max : blueChromaValue 0 0 255 = 23999261717 / 100000000 := by norm_num [blueChromaValue_eq]

theorem hz_lumaValue_min : hz (lumaValue 0 0 0) = 15188235294 / 10000000 := by norm_num [lumaValue_min, hz_eq]

theorem hz_lumaValue_max : hz (lumaValue 255 255 255) = 2205838932170615373 / 1000000000000000 := by
  norm_num [lumaValue_max, hz_eq]

/-- The least frequency of either chroma value. -/
theorem hz_chroma_min : hz (1600738283 / 100000000) = 1550219240219593367 / 1000000000000000 := by norm_num [hz_eq]

/-- The greatest frequency of either chroma value. -/
theorem hz_chroma_max : hz (23999261717 / 100000000) = 2252918014180406633 / 1000000000000000 := by norm_num [hz_eq]

/-! ### From the extremes to all bytes -/

section

variable {r g b : Nat} (hr : r ≤ 255) (hg : g ≤ 255) (hb : b ≤ 255)
include hr

theorem hz_byte_bounds : 1500 ≤ hz r ∧ hz r ≤ 22999999995 / 10000000 := by
  rw [← hz_zero, ← hz_max]
  exact ⟨hz_mono (Nat.cast_le.mpr r.zero_le), hz_mono (Nat.cast_le.mpr hr)⟩

include hg hb

theorem grey_bounds : 1500 ≤ grey r g b ∧ grey r g b ≤ 22999999995 / 10000000 := by
  rw [← hz_zero, ← hz_max, ← grey_self, ← grey_self]
  exact ⟨grey_mono r.zero_le g.zero_le b.zero_le, grey_mono hr hg hb⟩

theorem lumaValue_bounds : 6 ≤ lumaValue r g b ∧ lumaValue r g b ≤ 22498615977 / 100000000 := by
  rw [← lumaValue_min, ← lumaValue_max]
  exact ⟨lumaValue_mono r.zero_le g.zero_le b.zero_le, lumaValue_mono hr hg hb⟩

theorem redChromaValue_bounds :
    1600738283 / 100000000 ≤ redChromaValue r g b ∧ redChromaValue r g b ≤ 23999261717 / 100000000 := by
  rw [← redChromaValue_min, ← redChromaValue_max]
  exact ⟨redChromaValue_mono r.zero_le hg hb, redChromaValue_mono hr g.zero_le b.zero_le⟩

theorem blueChromaValue_bounds :
    1600738283 / 100000000 ≤ blueChromaValue r g b ∧ blueChromaValue r g b ≤ 23999261717 / 100000000 := by
  rw [← blueChromaValue_min, ← blueChromaValue_max]
  exact ⟨blueChromaValue_mono hr hg b.zero_le, blueChromaValue_mono r.zero_le g.zero_le hb⟩

theorem hz_lumaValue_bounds :
    15188235294 / 10000000 ≤ hz (lumaValue r g b) ∧
      hz (lumaValue r g b) ≤ 2205838932170615373 / 1000000000000000 := by
  rw [← hz_lumaValue_min, ← hz_lumaValue_max, lumaValue_min, lumaValue_max]
  exact (lumaValue_bounds hr hg hb).imp (hz_mono ·) (hz_mono ·)

end

/-- A chroma value within R135's range has a frequency within R135's range. -/
theorem hz_chroma_bounds {v : Rat} (h : 1600738283 / 100000000 ≤ v ∧ v ≤ 23999261717 / 100000000) :
    1550219240219593367 / 1000000000000000 ≤ hz v ∧ hz v ≤ 2252918014180406633 / 1000000000000000 := by
  rw [← hz_chroma_min, ← hz_chroma_max]
  exact h.imp (hz_mono ·) (hz_mono ·)

/-- Settles O13: every mapping is monotone in each channel, so its range over all bytes lies between its values at the
extreme bytes. -/
theorem colourRangesAndNeutralGrey : Obligations.ColourRangesAndNeutralGrey := by
  refine ⟨fun v => ⟨?_, ?_, ?_⟩, ⟨?_, ?_, hz_zero, hz_max, lumaValue_min, lumaValue_max, redChromaValue_min,
    redChromaValue_max, blueChromaValue_min, blueChromaValue_max, hz_lumaValue_min, hz_lumaValue_max, ?_, ?_, ?_, ?_⟩,
    fun r g b hr hg hb => ?_⟩
  · rw [grey_self, hz_eq, add_comm]
  · rw [redChromaValue_self, hz_neutral]
  · rw [blueChromaValue_self, hz_neutral]
  · rw [grey_self, hz_zero]
  · rw [grey_self, hz_max]
  · rw [redChromaValue_min, hz_chroma_min]
  · rw [redChromaValue_max, hz_chroma_max]
  · rw [blueChromaValue_min, hz_chroma_min]
  · rw [blueChromaValue_max, hz_chroma_max]
  · have hred := redChromaValue_bounds hr hg hb
    have hblue := blueChromaValue_bounds hr hg hb
    exact and_assoc.mp ⟨grey_bounds hr hg hb, and_assoc.mp ⟨hz_byte_bounds hr, and_assoc.mp ⟨lumaValue_bounds hr hg hb,
      and_assoc.mp ⟨hred, and_assoc.mp ⟨hblue, and_assoc.mp ⟨hz_lumaValue_bounds hr hg hb,
      and_assoc.mp ⟨hz_chroma_bounds hred, hz_chroma_bounds hblue⟩⟩⟩⟩⟩⟩⟩

end Sys2Proof.Machine

namespace Sys2Proof.Machine

open Sys2Proof.Claims

/-! ## A segment of the live projection (O30) -/

/-- A segment of a live command is a step of the live walk, in every view (R198). -/
theorem runSegment_of_live (seg : Segment) {s : State} (hr : s.running ≠ .pcm) : runSegment seg s = runLive seg s := by
  obtain ⟨-, h⟩ | ⟨hpcm, -⟩ | ⟨hpcm, -⟩ := runSegment_cases seg s
  · exact h
  · exact absurd hpcm hr
  · exact absurd hpcm hr

/-- The engine's instructions for segments emit and advance as the live walk does (R95, R198). -/
theorem exec_segmentInstr_of_live (seg : Segment) {s : State} (hr : s.running ≠ .pcm) :
    exec (segmentInstr seg) s = .next { s with
      outLive := s.outLive ++ [liveRecord seg s.tAcc], tAcc := s.tAcc + segDuration seg, segPtr := s.segPtr + 1,
      sub := 0, j := 0 } := by
  rw [exec_segmentInstr, runSegment_of_live seg hr]
  rfl

/-- Settles O30: the step of the live walk at a hold, and at a curve. -/
theorem liveSegmentsEmitAndAdvance : Obligations.LiveSegmentsEmitAndAdvance := by
  intro s f fs d hr
  exact ⟨exec_segmentInstr_of_live (.hold f d) hr, exec_segmentInstr_of_live (.curve fs d) hr⟩

/-! ## The header in the rules' own tables (R151 to R157) -/

/-- The header is the rules' 21 tones, each held for its duration (R151 to R157). -/
theorem header_eq_headerSegments (v : BitVec 7) : header v = headerSegments v := rfl

/-- The records of a header are its tones, each set at its start time of R157 (R159, R198). -/
theorem liveRecords_header (v : BitVec 7) (t : Time) : liveRecords t (header v) = headerRecords v t := by
  rw [header_eq_headerSegments]
  simp [liveRecords, liveRecord, segDuration, Nat.add_assoc]

/-! ## What `ENC_HDR` answers (O14) -/

/-- The accepted `ENC_HDR` with its schedule built: the header of `VIS_CODE` alone (R159). -/
def builtHeader (s : State) : State := { acceptEncode .hdr s with sched := header s.visCode, phase := .project }

/-- `ENC_HDR` has no check that can fail: at once, it projects the header (R159, R277). -/
theorem exec_encHdr_atomic {s : State} (hs : s.status ≠ .busy) (hv : s.view = .atomic) :
    exec .encHdr s = .next (projectAndEnd (builtHeader s)) :=
  exec_encodeInstr_atomic .hdr s hs hv

/-- No projection writes `PREP` (R42). -/
theorem projectAndEnd_prep (s : State) : (projectAndEnd s).prep = s.prep := by
  simp only [projectAndEnd, endCommand, setCounts_eq]
  split <;> rfl

/-- The records of `ENC_HDR`: the header's from `T0` on, and the `SPAN` of its 1.71 s (R157, R159, R200). -/
theorem projectAndEnd_builtHeader_outLive (s : State) :
    (projectAndEnd (builtHeader s)).outLive =
      headerRecords s.visCode (startTime s) ++ [.span (startTime s) (startTime s + 1710000000)] :=
  calc (projectAndEnd (builtHeader s)).outLive
      = liveRecords (startTime s) (header s.visCode) ++
          [.span (startTime s) (startTime s + totalDuration (header s.visCode))] := projectAndEnd_outLive _
    _ = headerRecords s.visCode (startTime s) ++ [.span (startTime s) (startTime s + 1710000000)] := by
          rw [liveRecords_header, header_totalDuration]

/-- Settles O14: `ENC_HDR` projects the header it built; field by field, what that leaves. -/
theorem encHdrEmitsTheHeader : Obligations.EncHdrEmitsTheHeader := by
  refine ⟨rfl, fun s hs hv => ?_⟩
  have hexec := exec_encHdr_atomic hs hv
  exact ⟨_, hexec, projectAndEnd_status _, projectAndEnd_err _, projectAndEnd_segCount _, projectAndEnd_sampCount _,
    projectAndEnd_sampEmit _, projectAndEnd_outPcm _, onlyOutputs_exec (by simp) hexec, projectAndEnd_prep _,
    projectAndEnd_sched _, projectAndEnd_builtHeader_outLive s⟩

end Sys2Proof.Machine

namespace Sys2Proof.Machine

open Sys2Proof.Claims

/-! ## The closing `SPAN` and the record stream (O6, O25) -/

/-- Settles O6: the engine's turn at the end of the schedule is `finish`, and a live command's record there is the
`SPAN`. -/
theorem liveScheduleEndsWithSpan : Obligations.LiveScheduleEndsWithSpan := by
  intro s hbusy hproject hlive hptr hh
  have hturn := engineTurn_finish hbusy hproject (List.getElem?_eq_none hptr)
  rw [step, turn, hh]
  refine hturn.trans ?_
  simp only [finish_eq, if_neg hlive]
  rfl

/-- A live command that ends `DONE` leaves the records of `SCHED` from `T0` on, and the `SPAN` of its whole duration
(R198, R200). -/
theorem exec_live_outLive {c : EncCmd} {s t : State} (hc : c ≠ .pcm) (hs : s.status ≠ .busy) (hv : s.view = .atomic)
    (h : exec (encodeInstr c) s = .next t) (hd : t.status = .done) :
    t.outLive =
      liveRecords (startTime s) t.sched ++ [.span (startTime s) (startTime s + totalDuration t.sched)] := by
  obtain ⟨b, hb, rfl⟩ := exec_encodeInstr_done hs hv h hd
  have hrun : b.running ≠ .pcm := by rw [hb.frame]; exact hc
  have hempty : b.outLive = [] := by rw [hb.frame]; rfl
  have htime : b.tAcc = startTime s := by rw [hb.frame]; rfl
  have hstart : startTime b = startTime s := by rw [hb.frame]; rfl
  rw [projectAndEnd_outLive, if_neg hrun, projectAndEnd_sched, hempty, htime, hstart, List.nil_append]

/-- Settles O25: both commands leave the records of their own `SCHED`, in order, and then the `SPAN`. -/
theorem liveRecordsFollowTheSchedule : Obligations.LiveRecordsFollowTheSchedule := by
  intro s t i hi hs hv h hd
  obtain ⟨c, hc, rfl⟩ : ∃ c, c ≠ .pcm ∧ i = encodeInstr c := by
    obtain rfl | rfl := hi
    · exact ⟨.hdr, nofun, rfl⟩
    · exact ⟨.live, nofun, rfl⟩
  have hrecords := exec_live_outLive hc hs hv h hd
  have hlength := liveRecords_length (startTime s) t.sched
  refine ⟨?_, fun k hk => exec_live_getElem? hc hs hv h hd hk, ?_⟩
  · rw [hrecords, List.length_append, hlength, List.length_singleton]
  · rw [hrecords, ← hlength, List.getElem?_concat_length]
    rfl

end Sys2Proof.Machine

namespace Sys2Proof.Machine

open Sys2Proof.Claims

/-! ## A list of blocks of one length -/

theorem length_flatMap_range {α : Type} {f : Nat → List α} {k : Nat} (n : Nat) (hf : ∀ i, (f i).length = k) :
    ((List.range n).flatMap f).length = k * n := by
  simp [List.length_flatMap, hf, Nat.mul_comm]

/-- Where every block has `k` elements, block `l` begins at element `k * l`. -/
theorem take_drop_flatMap_range {α : Type} {f : Nat → List α} {k n l : Nat} (hf : ∀ i, (f i).length = k)
    (hl : l < n) : (((List.range n).flatMap f).drop (k * l)).take k = f l := by
  induction n with
  | zero => contradiction
  | succ n ih =>
    have hlen := length_flatMap_range n hf
    rw [List.range_succ, List.flatMap_append, List.flatMap_singleton]
    obtain hlt | rfl := Nat.lt_succ_iff_lt_or_eq.mp hl
    · have hfit : k * l + k ≤ k * n := Nat.mul_le_mul_left k hlt
      rw [List.drop_append_of_le_length (by omega),
        List.take_append_of_le_length (by rw [List.length_drop]; omega), ih hlt]
    · rw [← hlen, List.drop_left, ← hf l, List.take_length]

/-- The same after a list that comes first. -/
theorem take_drop_append_flatMap_range {α : Type} {f : Nat → List α} {k n l : Nat} (first : List α)
    (hf : ∀ i, (f i).length = k) (hl : l < n) :
    ((first ++ (List.range n).flatMap f).drop (first.length + k * l)).take k = f l := by
  rw [List.drop_length_add_append, take_drop_flatMap_range hf hl]

/-! ## How many segments a schedule has (R197) -/

theorem martinLine_length (b : BodyInput) (l : Nat) : (martinLine b l).length = 8 := rfl

theorem scottieLine_length (b : BodyInput) (l : Nat) : (scottieLine b l).length = 7 := rfl

theorem pdPair_length (b : BodyInput) (p : Nat) : (pdPair b p).length = 6 := rfl

theorem wrasseLine_length (b : BodyInput) (l : Nat) : (wrasseLine b l).length = 5 := rfl

/-- `len(SCHED)` by family; PD's lines come in pairs (R197). -/
theorem schedule_length (fam : Family) (s : State) (hpd : fam = .pd → s.numLines.toNat % 2 = 0) :
    (schedule fam s).length = segmentCount fam s.numLines.toNat := by
  rw [schedule, List.length_append, header_length]
  cases fam with
  | martin => exact congrArg (21 + ·) (length_flatMap_range _ (martinLine_length _))
  | scottie =>
    have hlines := length_flatMap_range s.numLines.toNat (scottieLine_length (bodyInput s (prepared .scottie s)))
    have hsum : 21 + (7 * s.numLines.toNat + 1) = 22 + 7 * s.numLines.toNat := by omega
    exact (congrArg (fun k => 21 + (k + 1)) hlines).trans hsum
  | pd =>
    have hpairs := length_flatMap_range (s.numLines.toNat / 2) (pdPair_length (bodyInput s (prepared .pd s)))
    have hlines : 6 * (s.numLines.toNat / 2) = 3 * s.numLines.toNat := by
      have heven := hpd rfl
      omega
    exact congrArg (21 + ·) (hpairs.trans hlines)
  | wrasse => exact congrArg (21 + ·) (length_flatMap_range _ (wrasseLine_length _))

/-! ## How long a schedule lasts (R197) -/

@[simp] theorem totalDuration_nil : totalDuration [] = 0 := rfl

@[simp] theorem totalDuration_cons (seg : Segment) (rest : List Segment) :
    totalDuration (seg :: rest) = segDuration seg + totalDuration rest := rfl

theorem totalDuration_flatMap_range {f : Nat → List Segment} {d : Time} (n : Nat)
    (hf : ∀ i, totalDuration (f i) = d) : totalDuration ((List.range n).flatMap f) = n * d := by
  induction n with
  | zero => exact (Nat.zero_mul d).symm
  | succ n ih =>
    rw [List.range_succ, List.flatMap_append, totalDuration_append, ih, List.flatMap_singleton, hf, Nat.succ_mul]

@[simp] theorem segDuration_syncSeg (b : BodyInput) : segDuration (syncSeg b) = b.tSync := rfl

@[simp] theorem segDuration_blankSeg (b : BodyInput) : segDuration (blankSeg b) = b.tBlank := rfl

@[simp] theorem segDuration_scanSeg (b : BodyInput) (l t : Nat) : segDuration (scanSeg b l t) = b.tScan := rfl

theorem totalDuration_martinLine (b : BodyInput) (l : Nat) :
    totalDuration (martinLine b l) = b.tSync + 4 * b.tBlank + 3 * b.tScan := by
  simp [martinLine]
  ring

theorem totalDuration_scottieLine (b : BodyInput) (l : Nat) :
    totalDuration (scottieLine b l) = b.tSync + 3 * b.tBlank + 3 * b.tScan := by
  simp [scottieLine]
  ring

theorem totalDuration_pdPair (b : BodyInput) (p : Nat) :
    totalDuration (pdPair b p) = b.tSync + b.tBlank + 4 * b.tScan := by
  simp [pdPair]
  ring

theorem totalDuration_wrasseLine (b : BodyInput) (l : Nat) :
    totalDuration (wrasseLine b l) = b.tSync + b.tBlank + 3 * b.tScan := by
  simp [wrasseLine]
  ring

/-- `T` by family (R197). -/
theorem schedule_totalDuration (fam : Family) (s : State) :
    totalDuration (schedule fam s) = scheduleTime fam s := by
  rw [schedule, totalDuration_append, header_totalDuration]
  cases fam with
  | martin => exact congrArg (1710000000 + ·) (totalDuration_flatMap_range _ (totalDuration_martinLine _))
  | scottie =>
    have hlines := totalDuration_flatMap_range s.numLines.toNat
      (totalDuration_scottieLine (bodyInput s (prepared .scottie s)))
    exact (congrArg (1710000000 + (s.tSync.toNat + ·)) hlines).trans (Nat.add_assoc _ _ _).symm
  | pd => exact congrArg (1710000000 + ·) (totalDuration_flatMap_range _ (totalDuration_pdPair _))
  | wrasse => exact congrArg (1710000000 + ·) (totalDuration_flatMap_range _ (totalDuration_wrasseLine _))

/-! ## The scans of a schedule are the tracks of the prepared image -/

/-- A scan of a line of the image is that line's prepared track (R170, R190). -/
theorem scanSeg_prepared {fam : Family} {s : State} {l t : Nat} {g : Nat → Freq} (hl : l < s.numLines.toNat)
    (ht : (prepLine s.params.num fam s.pix s.hPixels.toNat l)[t]? = some ((List.range s.hPixels.toNat).map g)) :
    scanSeg (bodyInput s (prepared fam s)) l t = .curve ((List.range s.hPixels.toNat).map g) s.tScan.toNat := by
  have hline : (prepared fam s)[l]? = some (prepLine s.params.num fam s.pix s.hPixels.toNat l) := by
    simp [prepared, prepare, hl]
  refine congrArg (Segment.curve · _) (List.map_congr_left fun x hx => ?_)
  have hx : x < s.hPixels.toNat := List.mem_range.mp hx
  simp [bodyInput, prepAt, List.getD_eq_getElem?_getD, hline, ht, hx]

/-- PD averages the chroma over the pair of lines of an even line (R174). -/
theorem chromaTrack_two_mul (num : Num) (value : Nat → Nat → Nat → Rat) (m : List Host.Cell) (w p : Nat) :
    chromaTrack num value m w (2 * p) =
      (List.range w).map fun x =>
        rndF num ((rawYc num value m w (2 * p) x + rawYc num value m w (2 * p + 1) x) / 2) := by
  rw [chromaTrack, Nat.mul_div_cancel_left p Nat.two_pos]

/-! ## The schedules, segment by segment (O20 to O23) -/

/-- Settles O20: a Martin line's tracks are green, blue and red (R171). -/
theorem martinSchedule : Obligations.MartinSchedule := by
  intro s l hl
  have hline := take_drop_append_flatMap_range (header s.visCode)
    (martinLine_length (bodyInput s (prepared .martin s))) hl
  refine ⟨schedule_length .martin s nofun, hline.trans ?_⟩
  rw [martinLine, scanSeg_prepared hl (t := 0) rfl, scanSeg_prepared hl (t := 1) rfl, scanSeg_prepared hl (t := 2) rfl]
  rfl

/-- Settles O21: the one sync comes before the first line; a Scottie line's tracks are green, blue and red (R171). -/
theorem scottieSchedule : Obligations.ScottieSchedule := by
  intro s l hl
  have hsplit : schedule .scottie s = (header s.visCode ++ [syncHold s]) ++
      (List.range s.numLines.toNat).flatMap (scottieLine (bodyInput s (prepared .scottie s))) :=
    (List.append_assoc _ [syncHold s] _).symm
  have hline := take_drop_append_flatMap_range (header s.visCode ++ [syncHold s])
    (scottieLine_length (bodyInput s (prepared .scottie s))) hl
  refine ⟨schedule_length .scottie s nofun, rfl, ?_⟩
  rw [hsplit]
  refine hline.trans ?_
  rw [scottieLine, scanSeg_prepared hl (t := 0) rfl, scanSeg_prepared hl (t := 1) rfl,
    scanSeg_prepared hl (t := 2) rfl]
  rfl

/-- Settles O22: the luma tracks of both lines of the pair, and the chroma tracks of its even line (R174). -/
theorem pdSchedule : Obligations.PdSchedule := by
  intro s p heven hp
  have hl : 2 * p < s.numLines.toNat := by omega
  have hl' : 2 * p + 1 < s.numLines.toNat := by omega
  have hline := take_drop_append_flatMap_range (header s.visCode)
    (pdPair_length (bodyInput s (prepared .pd s))) hp
  have hchroma (value : Nat → Nat → Nat → Rat) :=
    congrArg some (chromaTrack_two_mul s.params.num value s.pix s.hPixels.toNat p)
  refine ⟨schedule_length .pd s fun _ => heven, hline.trans ?_⟩
  rw [pdPair, scanSeg_prepared hl (t := 0) rfl, scanSeg_prepared (fam := .pd) hl (t := 1) (hchroma redChromaValue),
    scanSeg_prepared (fam := .pd) hl (t := 2) (hchroma blueChromaValue), scanSeg_prepared hl' (t := 0) rfl]
  rfl

/-- Settles O23: a Wrasse line's tracks are red, green and blue (R172). -/
theorem wrasseSchedule : Obligations.WrasseSchedule := by
  intro s l hl
  have hline := take_drop_append_flatMap_range (header s.visCode)
    (wrasseLine_length (bodyInput s (prepared .wrasse s))) hl
  refine ⟨schedule_length .wrasse s nofun, hline.trans ?_⟩
  rw [wrasseLine, scanSeg_prepared hl (t := 0) rfl, scanSeg_prepared hl (t := 1) rfl, scanSeg_prepared hl (t := 2) rfl]
  rfl

/-! ## What `ENC_LIVE` answers (O15) -/

theorem liveRecords_append (t : Time) (xs ys : List Segment) :
    liveRecords t (xs ++ ys) = liveRecords t xs ++ liveRecords (t + totalDuration xs) ys := by
  induction xs generalizing t with
  | nil => rfl
  | cons seg rest ih => simp [liveRecords, ih, Nat.add_assoc]

/-- Every image's records begin with those of its header (R157, R191). -/
theorem take_liveRecords_schedule (fam : Family) (s : State) (t : Time) (rest : List Record) :
    (liveRecords t (schedule fam s) ++ rest).take 21 = headerRecords s.visCode t := by
  have hlen : (liveRecords t (header s.visCode)).length = 21 := liveRecords_length _ _
  rw [schedule, liveRecords_append, List.append_assoc, List.take_left' hlen, liveRecords_header]

/-- Settles O15: `ENC_LIVE` projects the schedule it built; field by field, what that leaves. -/
theorem encLiveSucceeds : Obligations.EncLiveSucceeds := by
  intro s fam hs hv henc
  have hexec : exec .encLive s = _ := exec_encodeInstr_of_encodable .live fam s nofun hs hv henc
  obtain ⟨⟨-, -, -, -, hpd, -, -⟩, -⟩ := henc
  have hlength := schedule_length fam s hpd
  have hrecords := exec_live_outLive (c := .live) nofun hs hv hexec (projectAndEnd_status _)
  rw [projectAndEnd_sched, builtImage_sched] at hrecords
  refine ⟨_, hexec, projectAndEnd_status _, projectAndEnd_err _, ?_, ?_, ?_, ?_, projectAndEnd_outPcm _,
    projectAndEnd_sampCount _, projectAndEnd_sampEmit _, onlyOutputs_exec (by simp) hexec⟩
  · have hle := schedule_length_le fam s
    rw [projectAndEnd_segCount, builtImage_sched, BitVec.toNat_ofNat, Nat.mod_eq_of_lt (by omega), hlength]
  · rw [hrecords, List.length_append, liveRecords_length, hlength, List.length_singleton]
  · rw [hrecords, List.getLast?_concat, schedule_totalDuration]
    rfl
  · rw [hrecords]
    exact take_liveRecords_schedule fam s _ _

end Sys2Proof.Machine

namespace Sys2Proof.Machine

open Sys2Proof.Claims

/-! ## Rendering, sample by sample (R222 to R225) -/

/-- `PcmWrite(N, Sample(f, N)) ; N <- N + 1` for each frequency of a list in turn (R222). -/
def renderList (c : Synth) (fs : List Freq) (b : PcmBuf) : PcmBuf := fs.foldl (fun b f => renderOne c f b) b

theorem renderList_append (c : Synth) (fs gs : List Freq) (b : PcmBuf) :
    renderList c (fs ++ gs) b = renderList c gs (renderList c fs b) := List.foldl_append

/-- The frequencies of the samples of a segment, in order (R222, R223). -/
def segSampleFreqs (rate : Nat) (seg : Segment) : List Freq :=
  (segFreqs seg).flatMap fun f => List.replicate (segSamples rate seg) f

theorem sampleFreqs_cons (rate : Nat) (seg : Segment) (rest : List Segment) :
    sampleFreqs rate (seg :: rest) = segSampleFreqs rate seg ++ sampleFreqs rate rest := by
  refine congrArg (· ++ sampleFreqs rate rest) ?_
  cases seg with
  | hold f d => exact (List.flatMap_singleton (fun f => List.replicate (d * rate / nsPerSecond) f) f).symm
  | curve fs d => rfl

theorem renderTimes_eq_renderList (c : Synth) (f : Freq) (k : Nat) (b : PcmBuf) :
    renderTimes c f k b = renderList c (List.replicate k f) b := by
  induction k generalizing b with
  | zero => rfl
  | succ k ih => exact ih _

theorem renderFreqs_eq_renderList (c : Synth) (k : Nat) (fs : List Freq) (b : PcmBuf) :
    renderFreqs c k fs b = renderList c (fs.flatMap fun f => List.replicate k f) b := by
  induction fs generalizing b with
  | nil => rfl
  | cons f rest ih => rw [renderFreqs, ih, renderTimes_eq_renderList, List.flatMap_cons, renderList_append]

theorem renderSegment_eq_renderList (c : Synth) (seg : Segment) (b : PcmBuf) :
    renderSegment c seg b = renderList c (segSampleFreqs c.rate seg) b := renderFreqs_eq_renderList _ _ _ _

/-- A schedule is one list of samples: no segment resets the index (R225). -/
theorem renderAll_eq_renderList (c : Synth) (sched : List Segment) (b : PcmBuf) :
    renderAll c sched b = renderList c (sampleFreqs c.rate sched) b := by
  induction sched generalizing b with
  | nil => rfl
  | cons seg rest ih => rw [renderAll, ih, renderSegment_eq_renderList, sampleFreqs_cons, renderList_append]

theorem length_flatMap_replicate (k : Nat) (fs : List Freq) :
    (fs.flatMap fun f => List.replicate k f).length = fs.length * k := by
  simp [List.length_flatMap]

/-- A schedule has as many samples as its segments yield (R226). -/
theorem sampleFreqs_length (rate : Nat) (sched : List Segment) :
    (sampleFreqs rate sched).length = schedYield rate sched := by
  induction sched with
  | nil => rfl
  | cons seg rest ih =>
    rw [sampleFreqs_cons, List.length_append, ih, segSampleFreqs, length_flatMap_replicate]
    rfl

theorem samplesFrom_cons (s : State) (n : Nat) (f : Freq) (fs : List Freq) :
    samplesFrom s n (f :: fs) = sampleOf s f n :: samplesFrom s (n + 1) fs := by
  simp only [samplesFrom, List.mapIdx_cons, Nat.add_zero, Nat.add_assoc, Nat.add_comm 1]

/-- Samples that fit the buffer stand at consecutive absolute indices from `N`, and the rest of the buffer is untouched
(R222, R225). -/
theorem renderList_of_fit (s : State) (fs : List Freq) (b : PcmBuf) (hfit : b.n + fs.length ≤ b.samples.length) :
    renderList (synthOf s) fs b =
      { samples := b.samples.take b.n ++ samplesFrom s b.n fs ++ b.samples.drop (b.n + fs.length)
        n := b.n + fs.length } := by
  induction fs generalizing b with
  | nil => simp [renderList, samplesFrom]
  | cons f rest ih =>
    rw [List.length_cons] at hfit
    have hn : b.n < b.samples.length := by omega
    have hrest := ih (renderOne (synthOf s) f b) (by
      simp only [renderOne, pcmWrite, List.length_set]
      omega)
    have htake : (b.samples.set b.n (sampleOf s f b.n)).take (b.n + 1) = b.samples.take b.n ++ [sampleOf s f b.n] := by
      rw [List.take_add_one, List.take_set_of_le le_rfl, List.getElem?_set_self hn]
      rfl
    have hdrop : (b.samples.set b.n (sampleOf s f b.n)).drop (b.n + 1 + rest.length) =
        b.samples.drop (b.n + (rest.length + 1)) := by
      rw [List.drop_set_of_lt (by omega), Nat.add_right_comm, Nat.add_assoc]
    refine hrest.trans ?_
    simp only [renderOne, pcmWrite, List.length_cons, samplesFrom_cons]
    refine congrArg₂ PcmBuf.mk ?_ (by omega)
    refine (congrArg₂ (fun xs ys => xs ++ samplesFrom s (b.n + 1) rest ++ ys) htake hdrop).trans ?_
    simp

/-! ## A segment of the sample projection (O27, O28) -/

/-- A segment a step, `ENC_PCM` renders the whole segment: its samples where the buffer stood, and the next segment
(R222, R223, R228). -/
theorem exec_segmentInstr_of_pcm (seg : Segment) {s : State} (hr : s.running = .pcm) (hv : s.view ≠ .sample)
    (hfit : s.n + (segSampleFreqs s.sampleRate.toNat seg).length ≤ s.outPcm.length) :
    exec (segmentInstr seg) s = .next { s with
      outPcm := s.outPcm.take s.n ++ samplesFrom s s.n (segSampleFreqs s.sampleRate.toNat seg) ++
        s.outPcm.drop (s.n + (segSampleFreqs s.sampleRate.toNat seg).length)
      n := s.n + (segSampleFreqs s.sampleRate.toNat seg).length, segPtr := s.segPtr + 1, sub := 0, j := 0 } := by
  obtain ⟨hr', -⟩ | ⟨-, -, h⟩ | ⟨-, hv', -⟩ := runSegment_cases seg s
  · exact absurd hr hr'
  · have hrender : renderSegment (synthOf s) seg (pcmBuf s) = _ :=
      (renderSegment_eq_renderList _ _ _).trans (renderList_of_fit s _ (pcmBuf s) hfit)
    rw [exec_segmentInstr, h, runPcmSegment, hrender]
    rfl
  · exact absurd hv' hv

/-- Settles O27: a hold has `floor(d * fs / 10^9)` samples of its one frequency. -/
theorem holdRendersItsSamples : Obligations.HoldRendersItsSamples := by
  intro s f d hr hv hfit c
  have hfreqs : segSampleFreqs s.sampleRate.toNat (.hold f d) = List.replicate c f := List.flatMap_singleton _ f
  have hexec := exec_segmentInstr_of_pcm (.hold f d) hr hv
  rw [hfreqs, List.length_replicate] at hexec
  exact hexec hfit

/-- Settles O28: a curve of `k` frequencies has `floor(d * fs / (k * 10^9))` samples of each in turn. -/
theorem curveRendersItsSamples : Obligations.CurveRendersItsSamples := by
  intro s fs d hr hv _ hfit c
  have hfreqs : segSampleFreqs s.sampleRate.toNat (.curve fs d) = fs.flatMap fun f => List.replicate c f := rfl
  have hexec := exec_segmentInstr_of_pcm (.curve fs d) hr hv
  rw [hfreqs, length_flatMap_replicate] at hexec
  exact hexec hfit

/-! ## A sample of the sample view (O29) -/

/-- After the sample at `(SUB, J)`: `J` advances, then `SUB`, then `SEG_PTR` (R232). -/
theorem advanceSample_eq (seg : Segment) (s : State) :
    advanceSample seg s =
      { s with
        j := if s.j + 1 < segSamples s.sampleRate.toNat seg then s.j + 1 else 0
        sub :=
          if s.j + 1 < segSamples s.sampleRate.toNat seg then s.sub
          else if s.sub + 1 < (segFreqs seg).length then s.sub + 1 else 0
        segPtr :=
          if s.j + 1 < segSamples s.sampleRate.toNat seg ∨ s.sub + 1 < (segFreqs seg).length then s.segPtr
          else s.segPtr + 1 } := by
  by_cases hj : s.j + 1 < segSamples s.sampleRate.toNat seg
  · simp [advanceSample, hj]
  · by_cases hsub : s.sub + 1 < (segFreqs seg).length <;> simp [advanceSample, nextSegment, hj, hsub]

/-- In the sample view the engine's instructions for segments are steps of the sample walk (R95, R232). -/
theorem exec_segmentInstr_of_sample (seg : Segment) {s : State} (hr : s.running = .pcm) (hv : s.view = .sample) :
    exec (segmentInstr seg) s = .next (runPcmSample seg s) := by
  rw [exec_segmentInstr, runSegment, hr, hv]

/-- A step of the sample walk skips a segment that yields no sample, and else writes the one of `(SUB, J)` (R232). -/
theorem runPcmSample_of_no_sample {seg : Segment} {s : State} (hc : segSamples s.sampleRate.toNat seg = 0) :
    runPcmSample seg s = nextSegment s := if_pos hc

theorem runPcmSample_of_freq {seg : Segment} {s : State} {f : Freq} (hc : 0 < segSamples s.sampleRate.toNat seg)
    (hf : (segFreqs seg)[s.sub]? = some f) :
    runPcmSample seg s = advanceSample seg (withPcm (renderOne (synthOf s) f (pcmBuf s)) s) := by
  rw [runPcmSample, if_neg hc.ne', hf]

/-- Settles O29: a hold is a segment of one frequency, and a curve one of many; the step is that of the sample walk. -/
theorem sampleStepWritesOneSample : Obligations.SampleStepWritesOneSample := by
  intro s i fs c d hr hv hi
  obtain ⟨seg, rfl, rfl, rfl⟩ : ∃ seg, i = segmentInstr seg ∧ fs = segFreqs seg ∧
      c = segSamples s.sampleRate.toNat seg := by
    obtain ⟨f, rfl, rfl, rfl⟩ | ⟨rfl, rfl⟩ := hi
    · exact ⟨.hold f d, rfl, rfl, rfl⟩
    · exact ⟨.curve fs d, rfl, rfl, rfl⟩
  rw [exec_segmentInstr_of_sample seg hr hv]
  refine ⟨fun hc => ?_, fun f hc hf => ?_⟩
  · rw [runPcmSample_of_no_sample hc]
    rfl
  · rw [runPcmSample_of_freq hc hf, advanceSample_eq]
    rfl

end Sys2Proof.Machine

namespace Sys2Proof.Machine

open Sys2Proof.Claims

/-! ## What `ENC_PCM` answers (O16, O17) -/

section
variable {s t : State} (hs : s.status ≠ .busy) (hv : s.view = .atomic) (h : exec .encPcm s = .next t)
  (hd : t.status = .done)
include hs hv h hd

/-- An `ENC_PCM` that ends `DONE` at once has rendered its whole schedule into a buffer of zeros (R221, R228). -/
theorem exec_encPcm_done :
    ∃ b, Built (acceptEncode .pcm s) b ∧ t = projectAndEnd b ∧ b.running = .pcm ∧ pcmBuf b =
      { samples := List.replicate (sampleTotal s.sampleRate.toNat t.sched) (.value 0), n := 0 } := by
  obtain ⟨b, hb, rfl⟩ := exec_encodeInstr_done (c := .pcm) hs hv h hd
  have hrun : b.running = .pcm := by rw [hb.frame]; rfl
  have hn : b.n = 0 := by rw [hb.frame]; rfl
  have hrate : b.sampleRate = s.sampleRate := by rw [hb.frame]; rfl
  refine ⟨b, hb, rfl, hrun, ?_⟩
  rw [pcmBuf, hn, hb.outPcm, projectAndEnd_sched, hrate]
  rfl

/-- `SAMP_COUNT` is the samples of the whole duration, which fit its 64 bits (R36, R221). -/
theorem encPcm_sampCount : t.sampCount.toNat = sampleTotal s.sampleRate.toNat t.sched := by
  obtain ⟨b, hb, rfl, hrun, -⟩ := exec_encPcm_done hs hv h hd
  have hrate : b.sampleRate = s.sampleRate := by rw [hb.frame]; rfl
  rw [projectAndEnd_sampCount, if_pos hrun, projectAndEnd_sched, hrate, BitVec.toNat_ofNat,
    Nat.mod_eq_of_lt (sampleTotal_lt hb.duration_lt)]

/-- `SAMP_EMIT` is the number of samples the segments yield (R226). -/
theorem encPcm_sampEmit : t.sampEmit.toNat = (sampleFreqs s.sampleRate.toNat t.sched).length := by
  obtain ⟨b, hb, rfl, hrun, hbuf⟩ := exec_encPcm_done hs hv h hd
  have hrate : (synthOf b).rate = s.sampleRate.toNat := by rw [hb.frame]; rfl
  have hfit := (schedYield_le_sampleTotal s.sampleRate.toNat b.sched).trans_lt (sampleTotal_lt hb.duration_lt)
  rw [projectAndEnd_sampEmit, if_pos hrun, hbuf, renderAll_n, hrate, projectAndEnd_sched, sampleFreqs_length,
    Nat.zero_add, BitVec.toNat_ofNat, Nat.mod_eq_of_lt hfit]

/-- The buffer's length is `SAMP_COUNT`, and the samples the segments yield are no more (R226). -/
theorem encPcm_counts : t.outPcm.length = t.sampCount.toNat ∧ t.sampEmit.toNat ≤ t.sampCount.toNat := by
  obtain ⟨b, hb, rfl⟩ := exec_encodeInstr_done (c := .pcm) hs hv h hd
  exact countInv_projectAndEnd hb hd

/-- The buffer has the samples of the schedule from index 0 on, and zeros after them (R225, R226, R228). -/
theorem encPcm_outPcm :
    t.outPcm = samplesFrom s 0 (sampleFreqs s.sampleRate.toNat t.sched) ++
      List.replicate (t.sampCount.toNat - t.sampEmit.toNat) (.value 0) := by
  obtain ⟨-, hle⟩ := encPcm_counts hs hv h hd
  rw [encPcm_sampEmit hs hv h hd, encPcm_sampCount hs hv h hd] at hle ⊢
  obtain ⟨b, hb, rfl, hrun, hbuf⟩ := exec_encPcm_done hs hv h hd
  have hsynth : synthOf b = synthOf s := by rw [hb.frame]; rfl
  rw [projectAndEnd_sched] at hbuf hle ⊢
  rw [projectAndEnd_outPcm, if_pos hrun, hsynth, renderAll_eq_renderList, hbuf, renderList_of_fit]
  · simp [synthOf]
  · rw [List.length_replicate, Nat.zero_add]
    exact hle

theorem encPcm_outLive : t.outLive = [] := by
  obtain ⟨b, hb, rfl, hrun, -⟩ := exec_encPcm_done hs hv h hd
  rw [projectAndEnd_outLive, if_pos hrun, hb.frame]
  rfl

end

/-- Settles O16: `ENC_PCM` projects the family's schedule; field by field, what that leaves. -/
theorem encPcmSucceeds : Obligations.EncPcmSucceeds := by
  intro s fam hs hv henc
  have hexec : exec .encPcm s = _ := exec_encodeInstr_of_encodable .pcm fam s nofun hs hv henc
  have hdone := projectAndEnd_status (builtImage .pcm fam (acceptEncode .pcm s))
  have hsched : (projectAndEnd (builtImage .pcm fam (acceptEncode .pcm s))).sched = schedule fam s :=
    (projectAndEnd_sched _).trans (builtImage_sched .pcm fam s)
  obtain ⟨⟨-, -, -, -, hpd, -, -⟩, -⟩ := henc
  obtain ⟨hlength, hle⟩ := encPcm_counts hs hv hexec hdone
  refine ⟨_, hexec, hdone, projectAndEnd_err _, ?_, ?_, hlength, encPcm_sampEmit hs hv hexec hdone, hle,
    encPcm_outLive hs hv hexec hdone, onlyOutputs_exec (by simp) hexec⟩
  · have hle := schedule_length_le fam s
    rw [projectAndEnd_segCount, builtImage_sched, BitVec.toNat_ofNat, Nat.mod_eq_of_lt (by omega),
      schedule_length fam s hpd]
  · rw [encPcm_sampCount hs hv hexec hdone, hsched, sampleTotal, schedule_totalDuration]
    rfl

/-! ### The exact sine (R224, R230) -/

/-- The exact sine of `q` turns stands for the real number `sin(2πq)` and for no other. -/
theorem ampIs_sinTurn_exact (q : Rat) (x : ℝ) : ampIs (sinTurn .exact q) x ↔ x = Real.sin (2 * Real.pi * q) := by
  rw [sinTurn, ampIs_principalSine, principalTurn_sin]

/-- One turn more is the same principal turn. -/
theorem principalTurn_add_one (q : Rat) : principalTurn (q + 1) = principalTurn q := by
  have hfloor : (q + 1).floor = q.floor + 1 := Int.floor_add_one q
  have hfract : q + 1 - ((q + 1).floor : Rat) = q - (q.floor : Rat) := by
    rw [hfloor]
    push_cast
    ring
  rw [principalTurn, principalTurn, hfract]

/-- Settles O17: the buffer is that of `encPcm_outPcm`, and the exact sine at the quarter turns is computed. -/
theorem pcmIsTheSineOfTheAbsoluteIndex : Obligations.PcmIsTheSineOfTheAbsoluteIndex := by
  refine ⟨fun s t hs hv h hd => ?_, ampIs_sinTurn_exact, fun q => ?_, by decide +kernel, by decide +kernel,
    by decide +kernel, by decide +kernel⟩
  · exact ⟨encPcm_sampEmit hs hv h hd, (encPcm_counts hs hv h hd).2, encPcm_outPcm hs hv h hd⟩
  · exact congrArg principalSine (principalTurn_add_one q)

/-! ## Operands a command does not read (O59) -/

/-- `g` alters nothing that the command `c` reads, from its checks to its end. -/
structure Unread (c : EncCmd) (g : State → State) : Prop where
  running : ∀ s, (g s).running = s.running
  status : ∀ s, (g s).status = s.status
  family : ∀ s, (g s).family = s.family
  written : ∀ s, imageWritten (g s).pix (g s).numLines.toNat (g s).hPixels.toNat =
    imageWritten s.pix s.numLines.toNat s.hPixels.toNat
  error : ∀ s, encodeError c (g s) = encodeError c s
  raise : ∀ e s, raiseError e (g s) = g (raiseError e s)
  headerBuilt : ∀ s, { g s with sched := header (g s).visCode, phase := .project } =
    g { s with sched := header s.visCode, phase := .project }
  imageBuilt : ∀ fam s, builtImage c fam (g s) = g (builtImage c fam s)
  project : ∀ s, s.running = c → projectAndEnd (g s) = g (projectAndEnd s)

/-- The checks raise the same error, or the same is built. -/
theorem Unread.checkAndBuild_eq {c : EncCmd} {g : State → State} (hg : Unread c g) {s b : State} (hr : s.running = c)
    (hb : checkAndBuild s = .next b) : checkAndBuild (g s) = .next (g b) := by
  subst hr
  obtain ⟨e, he, rfl⟩ | ⟨hhdr, rfl⟩ | ⟨hc, he, fam, hf, hw, rfl⟩ := checkAndBuild_next s b hb
  · rw [checkAndBuild, hg.running, hg.error, he]
    exact congrArg Host.Outcome.next (hg.raise e s)
  · have hbuild : checkAndBuild (g s) = .next { g s with sched := header (g s).visCode, phase := .project } := by
      rw [checkAndBuild, hg.running, hhdr]
      rfl
    exact hbuild.trans (congrArg Host.Outcome.next (hg.headerBuilt s))
  · have hp : ChecksPass s.running fam (g s) :=
      checksPass_of_encodeError hc ((hg.error s).trans he) ((congrArg familyOf (hg.family s)).trans hf)
    have hbuild := checkAndBuild_of_checksPass fam (g s) (by rwa [hg.running]) (by rwa [hg.running])
      ((hg.written s).trans hw)
    rw [hbuild, hg.running, hg.imageBuilt]
    rfl

/-- In the atomic view a command's result is altered as its accepted state was, where it reads nothing of that. -/
theorem Unread.exec_eq {c : EncCmd} {g : State → State} (hg : Unread c g) {s s' t : State}
    (haccept : acceptEncode c s' = g (acceptEncode c s)) (hs : s.status ≠ .busy) (hs' : s'.status ≠ .busy)
    (hv : s.view = .atomic) (hv' : s'.view = .atomic) (h : exec (encodeInstr c) s = .next t) :
    exec (encodeInstr c) s' = .next (g t) := by
  rw [exec_encodeInstr_atomic c s hs hv, andThen_next] at h
  obtain ⟨b, hb, ht⟩ := h
  have hb' : checkAndBuild (acceptEncode c s') = .next (g b) := haccept ▸ hg.checkAndBuild_eq rfl hb
  rw [exec_encodeInstr_atomic c s' hs' hv', andThen_next]
  refine ⟨g b, hb', ?_⟩
  rw [projectIfBusy] at ht ⊢
  rw [hg.status]
  obtain ⟨e, -, rfl⟩ | hbuilt := checkAndBuild_cases hb
  · obtain rfl := Host.Outcome.next.inj ht
    rfl
  · have hbusy : b.status = .busy := by rw [hbuilt.frame]; rfl
    have hrun : b.running = c := by rw [hbuilt.frame]; rfl
    rw [if_pos hbusy] at ht ⊢
    obtain rfl := Host.Outcome.next.inj ht
    exact congrArg Host.Outcome.next (hg.project b hrun)

/-- `s` with the start time of `T0_LO` and `T0_HI`, in the registers and in `T_ACC` (R29, R240). -/
def withStart (lo : Word) (hi : BitVec 31) (s : State) : State :=
  { s with t0Lo := lo, t0Hi := hi, tAcc := hi.toNat * 2 ^ 32 + lo.toNat }

/-- `s` with another `SAMPLE_RATE` (R28). -/
def withRate (rate : Word) (s : State) : State := { s with sampleRate := rate }

theorem finish_withStart (lo : Word) (hi : BitVec 31) {s : State} (hr : s.running = .pcm) :
    finish (withStart lo hi s) = withStart lo hi (finish s) := by
  have hr' : (withStart lo hi s).running = .pcm := hr
  simp only [finish_eq, if_pos hr, if_pos hr']
  rfl

theorem finish_withRate (rate : Word) {s : State} (hr : s.running ≠ .pcm) :
    finish (withRate rate s) = withRate rate (finish s) := by
  have hr' : (withRate rate s).running ≠ .pcm := hr
  simp only [finish_eq, if_neg hr, if_neg hr']
  rfl

/-- `ENC_PCM` does not read the start time (R227). -/
theorem unread_withStart (lo : Word) (hi : BitVec 31) : Unread .pcm (withStart lo hi) where
  running _ := rfl
  status _ := rfl
  family _ := rfl
  written _ := rfl
  error _ := rfl
  raise _ _ := rfl
  headerBuilt _ := rfl
  imageBuilt _ _ := rfl
  project s hr := by
    rw [projectAndEnd_of_pcm hr, projectAndEnd_of_pcm (s := withStart lo hi s) hr,
      ← finish_withStart lo hi (s := projectPcm s) hr]
    rfl

/-- `ENC_HDR` and `ENC_LIVE` do not read `SAMPLE_RATE` (R159, R199). -/
theorem unread_withRate (c : EncCmd) (hc : c ≠ .pcm) (rate : Word) : Unread c (withRate rate) where
  running _ := rfl
  status _ := rfl
  family _ := rfl
  written _ := rfl
  error s := by
    cases c with
    | hdr => rfl
    | live =>
      simp only [encodeError, withRate, reduceCtorEq, false_and, if_false]
      rfl
    | pcm => contradiction
  raise _ _ := rfl
  headerBuilt _ := rfl
  imageBuilt fam s := by
    rw [builtImage, builtImage, allocatePcm_eq, allocatePcm_eq, if_neg hc, if_neg hc]
    rfl
  project s hr := by
    have hlive : s.running ≠ .pcm := hr ▸ hc
    rw [projectAndEnd_of_live hlive, projectAndEnd_of_live (s := withRate rate s) hlive,
      ← finish_withRate rate (s := projectLive s) hlive]
    rfl

/-- Settles O59: the start time for `ENC_PCM`, and the rate for the live commands. -/
theorem unreadOperandsDoNotMatter : Obligations.UnreadOperandsDoNotMatter := by
  intro s t hs hv
  refine ⟨fun lo hi h => (unread_withStart lo hi).exec_eq rfl hs hs hv hv h, fun i rate hi h => ?_⟩
  obtain rfl | rfl := hi
  · exact (unread_withRate .hdr nofun rate).exec_eq rfl hs hs hv hv h
  · exact (unread_withRate .live nofun rate).exec_eq rfl hs hs hv hv h

end Sys2Proof.Machine

namespace Sys2Proof.Machine

open Sys2Proof.Claims

/-! ## The reserved command words and `CLEAR` (O7, O8) -/

/-- A word from 7 up is no command's opcode (R92, R100 a). -/
theorem decodeCommand_of_seven_le {w : Word} (hw : 7 ≤ w.toNat) : decodeCommand w = none := by
  unfold decodeCommand
  split
  case h_8 => rfl
  all_goals omega

/-- A reserved word written to a block that is not busy is accepted and raises its error (R242). -/
theorem commandWrite_reserved {s : State} {w : Word} (hs : s.status ≠ .busy) (hw : 7 ≤ w.toNat) :
    commandWrite w s = .next (raiseError .unsupportedFormatOperation (accept s)) := by
  rw [commandWrite, decodeCommand_of_seven_le hw]
  exact runCommand_accepted _ s hs

/-- Settles O7: what acceptance and `raise` change is what `cleared` lists. -/
theorem reservedCommandRaisesUnsupported : Obligations.ReservedCommandRaisesUnsupported := by
  intro s w rest hs hh hw
  rw [step_commandWrite hs hh, commandWrite_reserved (s := { s with host := rest }) hs hw]
  rfl

/-- Settles O8: what acceptance changes, with `IDLE` in place of `BUSY`, is what `cleared` lists. -/
theorem clearLeavesIdle : Obligations.ClearLeavesIdle :=
  ⟨rfl, fun s hs => runCommand_accepted (fun a => .next (flagsIdle a)) s hs⟩

/-! ## Pixel writes (O39) -/

/-- A pixel write is the host's whole turn (R245). -/
theorem step_pixels {s : State} {addr : Nat} {bytes : List Byte} {rest : List HostMove}
    (hh : s.host = .pixels addr bytes :: rest) : step s = .next (hostPixels addr bytes { s with host := rest }) := by
  rw [step, turn, hh]
  rfl

/-- A read after the write of one byte: that byte at a populated address, else what was there (R245). -/
theorem memRead_pixWriteByte (s : State) (addr a : Nat) (v : Byte) :
    memRead (pixWriteByte s addr v).pix a =
      if a = addr ∧ addr < s.params.pixmemBytes then some v else memRead s.pix a := by
  obtain ⟨hlt, h⟩ | ⟨hlt, h⟩ := pixWriteByte_cases s addr v <;> rw [h]
  · by_cases ha : a = addr
    · simp [ha, hlt, memRead_memWrite_same]
    · simp [ha, memRead_memWrite_other]
  · simp [hlt]

theorem pixWriteByte_params (s : State) (addr : Nat) (v : Byte) : (pixWriteByte s addr v).params = s.params := by
  obtain ⟨-, h⟩ | ⟨-, h⟩ := pixWriteByte_cases s addr v <;> rw [h]

/-- A read after a pixel write: the byte written to a populated address, else what was there (R245). -/
theorem memRead_pixWriteBytes (s : State) (addr a : Nat) (bytes : List Byte) :
    memRead (pixWriteBytes s addr bytes).pix a =
      if addr ≤ a ∧ a < addr + bytes.length ∧ a < s.params.pixmemBytes then bytes[a - addr]? else memRead s.pix a := by
  induction bytes generalizing s addr with
  | nil => rw [if_neg (by simp only [List.length_nil]; omega), pixWriteBytes]
  | cons v rest ih =>
    rw [pixWriteBytes, ih, memRead_pixWriteByte, pixWriteByte_params]
    obtain hlt | rfl | hgt := lt_trichotomy addr a
    · have hsub : a - addr = a - (addr + 1) + 1 := by omega
      simp [hlt.ne', Nat.succ_le_of_lt hlt, hlt.le, hsub, Nat.add_assoc, Nat.add_comm 1]
    · simp
    · simp [hgt.ne, hgt.not_ge, (hgt.trans (Nat.lt_succ_self addr)).not_ge]

/-- Settles O39: the frame of a pixel write, and the read after it at each address. -/
theorem pixelWriteStoresItsBytes : Obligations.PixelWriteStoresItsBytes := by
  intro s addr bytes rest hh
  refine ⟨fun hs => ?_, fun hs =>
    ⟨pixWriteBytes { s with host := rest } addr bytes, ?_, ?_, fun i v hv hlt => ?_, fun a ha => ?_⟩⟩
  · rw [step_pixels hh, hostPixels, if_pos hs]
  · rw [step_pixels hh, hostPixels, if_neg hs]
  · rw [pixWriteBytes_frame]
  · obtain ⟨hi, -⟩ := List.getElem?_eq_some_iff.mp hv
    rw [memRead_pixWriteBytes, if_pos ⟨Nat.le_add_right _ _, Nat.add_lt_add_left hi _, hlt⟩, Nat.add_sub_cancel_left,
      hv]
  · rw [memRead_pixWriteBytes]
    exact if_neg fun ⟨hle, hend, hlt⟩ => ha.elim hle.not_gt fun h => h.elim hend.not_ge hlt.not_ge

/-! ## The register map (R64) -/

/-- The offset of a register in the map of R64; of `reserved`, the first aligned offset with no register. -/
def Reg.offset (r : Reg) : Nat :=
  match r with
  | .cmd => 0x00
  | .status => 0x04
  | .err => 0x08
  | .family => 0x0C
  | .numLines => 0x10
  | .hPixels => 0x14
  | .tBlank => 0x18
  | .tScan => 0x1C
  | .tSync => 0x20
  | .visCode => 0x24
  | .sampleRate => 0x28
  | .t0Lo => 0x2C
  | .t0Hi => 0x30
  | .pixLen => 0x34
  | .line => 0x38
  | .hpos => 0x3C
  | .segCount => 0x40
  | .sampCountLo => 0x44
  | .sampCountHi => 0x48
  | .sampEmitLo => 0x4C
  | .sampEmitHi => 0x50
  | .estDurLo => 0x54
  | .estDurHi => 0x58
  | .freq0 i => 0x60 + 4 * i
  | .freq1 i => 0x70 + 4 * i
  | .freq2 i => 0x80 + 4 * i
  | .reserved => 0x5C

/-- A register of the map is reached at its own offset alone (R64). -/
theorem offset_regAt {offset : Nat} (h : regAt offset ≠ .reserved) : (regAt offset).offset = offset := by
  unfold regAt at h
  split at h
  case h_36 => exact absurd rfl h
  all_goals rfl

/-- A narrow access reaches no register (R64). -/
theorem regOf_of_ne_word {offset : Nat} {width : AccessWidth} (hw : width ≠ .word) :
    regOf offset width = .reserved := by
  cases width with
  | word => contradiction
  | _ => rfl

/-- A register is reached at its offset alone, and by a 32-bit access alone (R64). -/
theorem eq_of_regOf_eq {offset other : Nat} {width : AccessWidth} (hr : regAt other ≠ .reserved)
    (h : regOf offset width = regAt other) : offset = other ∧ width = .word := by
  by_cases hw : width = .word
  · subst hw
    have hat : regAt offset = regAt other := h
    refine ⟨?_, rfl⟩
    rw [← offset_regAt hr, ← hat, offset_regAt (hat ▸ hr)]
  · exact absurd (h.symm.trans (regOf_of_ne_word hw)) hr

/-- What every access but a 32-bit one at a listed offset reaches (R64). -/
theorem regOf_of_unlisted {offset : Nat} {width : AccessWidth}
    (h : width ≠ .word ∨ offset % 4 ≠ 0 ∨ 0x90 ≤ offset ∨ offset = 0x5C) : regOf offset width = .reserved := by
  by_cases hw : width = .word
  · subst hw
    have hat : offset % 4 ≠ 0 ∨ 0x90 ≤ offset ∨ offset = 0x5C := h.resolve_left (absurd rfl)
    unfold regOf regAt
    simp only
    split <;> simp at hat ⊢
  · exact regOf_of_ne_word hw

/-! ## Register writes (O38) -/

/-- A register write stores the bits of its field there, and nowhere else (R243, R30). -/
theorem writeReg_eq (r : Reg) (v : Word) (s : State) :
    writeReg r v s =
      { s with
        family := if r = .family then v.setWidth 3 else s.family
        numLines := if r = .numLines then v.setWidth 16 else s.numLines
        hPixels := if r = .hPixels then v.setWidth 16 else s.hPixels
        tBlank := if r = .tBlank then v else s.tBlank
        tScan := if r = .tScan then v else s.tScan
        tSync := if r = .tSync then v else s.tSync
        visCode := if r = .visCode then v.setWidth 7 else s.visCode
        sampleRate := if r = .sampleRate then v else s.sampleRate
        t0Lo := if r = .t0Lo then v else s.t0Lo
        t0Hi := if r = .t0Hi then v.setWidth 31 else s.t0Hi
        pixLen := if r = .pixLen then clampPixLen s.params.pixmemBytes v else s.pixLen
        line := if r = .line then v.setWidth 16 else s.line
        hpos := if r = .hpos then v.setWidth 16 else s.hpos } := by
  cases r <;> rfl

/-- What makes `r` the register of a field: a write to it stores the low bits and no other write does, a read hands the
field over, and the host's list has no part in it (R64, R243, R244). -/
structure HoldsField (r : Reg) (field : State → Nat) (bits : Nat) : Prop where
  write (r' : Reg) (v : Word) (s : State) : field (writeReg r' v s) = if r' = r then v.toNat % 2 ^ bits else field s
  read (s : State) : readReg r s = BitVec.ofNat 32 (field s)
  host (s : State) (moves : List HostMove) : field { s with host := moves } = field s

/-- After a write the field is the low bits of the word written (R243). -/
theorem HoldsField.write_same {r : Reg} {field : State → Nat} {bits : Nat} (h : HoldsField r field bits) (v : Word)
    (s : State) : field (writeReg r v s) = v.toNat % 2 ^ bits := (h.write r v s).trans (if_pos rfl)

/-- After a write the register reads the low bits of the word written (R244). -/
theorem HoldsField.read_write_same {r : Reg} {field : State → Nat} {bits : Nat} (h : HoldsField r field bits) (v : Word)
    (s : State) : readReg r (writeReg r v s) = BitVec.ofNat 32 (v.toNat % 2 ^ bits) := by
  rw [h.read, h.write_same]

/-- A field of the state that is written by truncation and read by extension (R243, R244). -/
theorem holdsField_of_setWidth {r : Reg} {bits : Nat} {get : State → BitVec bits}
    (hwrite : ∀ r' v s, get (writeReg r' v s) = if r' = r then v.setWidth bits else get s)
    (hread : ∀ s, readReg r s = (get s).setWidth 32) (hhost : ∀ s moves, get { s with host := moves } = get s) :
    HoldsField r (fun s => (get s).toNat) bits where
  write r' v s := by
    rw [hwrite]
    split
    · exact BitVec.toNat_setWidth _ _
    · rfl
  read s := by
    rw [hread]
    exact BitVec.eq_of_toNat_eq (by simp)
  host s moves := congrArg BitVec.toNat (hhost s moves)

/-- The field registers of the map hold their fields (R64). -/
theorem holdsField_of_mem {offset : Nat} {field : State → Nat} {bits : Nat}
    (h : (offset, field, bits) ∈ fieldRegisters) : HoldsField (regAt offset) field bits := by
  have hall : ∀ e ∈ fieldRegisters, HoldsField (regAt e.1) e.2.1 e.2.2 := by
    simp only [fieldRegisters, List.forall_mem_cons, List.not_mem_nil, false_implies, implies_true, and_true]
    and_intros
    all_goals
      exact holdsField_of_setWidth (fun _ _ _ => by simp [writeReg_eq, regAt]) (fun _ => by simp [readReg, regAt])
        fun _ _ => rfl
  exact hall _ h

/-- A field register is listed in the map, is not `CMD`, and lies below the FREQ windows (R64). -/
theorem regAt_of_mem {offset : Nat} {field : State → Nat} {bits : Nat} (h : (offset, field, bits) ∈ fieldRegisters) :
    regAt offset ≠ .reserved ∧ regAt offset ≠ .cmd ∧ offset < 0x60 := by
  have hall : ∀ e ∈ fieldRegisters, regAt e.1 ≠ .reserved ∧ regAt e.1 ≠ .cmd ∧ e.1 < 0x60 := by decide
  exact hall _ h

/-- A register write is the host's whole turn (R243). -/
theorem step_registerWrite {s : State} {offset : Nat} {width : AccessWidth} {v : Word} {rest : List HostMove}
    (hs : s.status ≠ .busy) (hh : s.host = .write offset width v :: rest) (hcmd : regOf offset width ≠ .cmd) :
    step s = .next (writeReg (regOf offset width) v { s with host := rest }) := by
  rw [step, turn, hh]
  exact (if_neg hs).trans (if_neg hcmd)

/-- A write to an offset where the host has no register to store in changes nothing (R243, R51). -/
theorem writeReg_of_unstored {offset : Nat} {width : AccessWidth}
    (h : width ≠ .word ∨ offset < 0x0C ∨ 0x3C < offset ∨ offset % 4 ≠ 0) (v : Word) (s : State) :
    writeReg (regOf offset width) v s = s := by
  by_cases hw : width = .word
  · subst hw
    have hat : offset < 0x0C ∨ 0x3C < offset ∨ offset % 4 ≠ 0 := h.resolve_left (absurd rfl)
    unfold regOf regAt
    simp only
    split <;> simp [writeReg] at hat ⊢
  · rw [regOf_of_ne_word hw]
    rfl

/-- Settles O38: a write reaches at most the register at its offset, and stores in no other. -/
theorem registerWriteFrame : Obligations.RegisterWriteFrame := by
  intro s offset width v rest hs hh hcmd
  have hcmd' : regOf offset width ≠ .cmd := fun h => by
    obtain ⟨ho, hw⟩ := eq_of_regOf_eq (other := 0x00) nofun h
    exact hcmd.elim (absurd ho) (absurd hw)
  refine ⟨_, step_registerWrite hs hh hcmd', ?_, fun other field bits hmem hne => ?_, fun hne => ?_, fun h => ?_⟩
  · rw [writeReg_frame]
  · obtain ⟨hlisted, -, -⟩ := regAt_of_mem hmem
    have hr : regOf offset width ≠ regAt other := fun h => hne (eq_of_regOf_eq hlisted h).1.symm
    rw [(holdsField_of_mem hmem).write, if_neg hr, (holdsField_of_mem hmem).host]
  · have hr : regOf offset width ≠ .pixLen := fun h => hne (eq_of_regOf_eq (other := 0x34) nofun h).1
    rw [writeReg_eq]
    exact if_neg hr
  · exact writeReg_of_unstored h v _

/-! ## Register reads (O37) -/

/-- What a register reads does not depend on the host's moves to come (R244). -/
theorem readReg_host (r : Reg) (s : State) (moves : List HostMove) :
    readReg r { s with host := moves } = readReg r s := by
  cases r <;> rfl

/-- A read that is not U4's hands over the word of the register and does nothing else (R244). -/
theorem step_read_word {s : State} {offset : Nat} {width : AccessWidth} {rest : List HostMove} {w : Word}
    (hh : s.host = .read offset width :: rest) (hu : readsUnwritten (regOf offset width) s = false)
    (hw : readReg (regOf offset width) s = w) : step s = .next { s with host := rest, hostData := .word w } := by
  rw [step_read hh, hostRead_written _ _ _ ((readsUnwritten_host _ _ _).trans hu), readReg_host, hw]

/-- U4's read hands over the word of the value held and is recorded (R38; log entry 7). -/
theorem step_read_unwritten {s : State} {offset : Nat} {width : AccessWidth} {rest : List HostMove} {w : Word}
    (hh : s.host = .read offset width :: rest) (hu : readsUnwritten (regOf offset width) s = true)
    (hw : readReg (regOf offset width) s = w) :
    step s = .next { s with host := rest, hostData := .word w, readFault := true } := by
  rw [step_read hh, hostRead, readsUnwritten_host, hu, Bool.or_true, readReg_host, hw]

/-- A read below the FREQ windows is never U4's (R38, R64). -/
theorem readsUnwritten_of_lt {offset : Nat} (h : offset < 0x60) (width : AccessWidth) (s : State) :
    readsUnwritten (regOf offset width) s = false := by
  by_contra hu
  obtain ⟨-, hwindow⟩ := window_of_readsUnwritten (eq_true_of_ne_false hu)
  omega

/-- The low word is the remainder by `2 ^ 32` (R73). -/
theorem loWord_eq_mod (v : Nat) : loWord v = BitVec.ofNat 32 (v % 2 ^ 32) :=
  BitVec.eq_of_toNat_eq (by simp [loWord])

/-- The words of the map outside the FREQ windows hold what their rules say (R64, R73, R94). -/
theorem readReg_of_mem {offset : Nat} {field : State → Nat} (h : (offset, field) ∈ readableWords) (s : State) :
    readReg (regAt offset) s = BitVec.ofNat 32 (field s) := by
  have hall : ∀ e ∈ readableWords, readReg (regAt e.1) s = BitVec.ofNat 32 (e.2 s) := by
    rw [readableWords, List.forall_mem_append, List.forall_mem_map]
    refine ⟨fun r hr => (holdsField_of_mem hr).read s, ?_⟩
    simp only [List.forall_mem_cons, List.not_mem_nil, false_implies, implies_true, and_true]
    and_intros
    · cases hs : s.status <;> simp [readReg, regAt, statusWord, hs]
    · cases he : s.err <;> simp [readReg, regAt, errWord, he]
    all_goals simp [readReg, regAt, loWord_eq_mod, hiWord, estDur]
  exact hall _ h

/-- Every readable word outside the FREQ windows lies below them (R64). -/
theorem offset_lt_of_mem {offset : Nat} {field : State → Nat} (h : (offset, field) ∈ readableWords) :
    offset < 0x60 := by
  have hall : ∀ e ∈ readableWords, e.1 < 0x60 := by decide
  exact hall _ h

/-- A 32-bit write and the read after it, at an offset below the FREQ windows that is not `CMD`'s (R243, R244). -/
theorem step_write_read {s : State} {offset : Nat} {v w : Word} {rest : List HostMove} (hs : s.status ≠ .busy)
    (hh : s.host = .write offset .word v :: .read offset .word :: rest) (hcmd : regAt offset ≠ .cmd)
    (hlt : offset < 0x60)
    (hw : readReg (regAt offset) (writeReg (regAt offset) v { s with host := .read offset .word :: rest }) = w) :
    let t := writeReg (regAt offset) v { s with host := .read offset .word :: rest }
    step s = .next t ∧ step t = .next { t with host := rest, hostData := .word w } := by
  intro t
  have hhost : t.host = .read offset .word :: rest := by
    rw [show t = _ from writeReg_frame ..]
  exact ⟨step_registerWrite hs hh hcmd, step_read_word hhost (readsUnwritten_of_lt hlt .word t) hw⟩

/-- `PIX_LEN` takes the smaller of the value written and the bound (R30). -/
theorem clampPixLen_toNat (bound : Nat) (v : Word) : (clampPixLen bound v).toNat = min v.toNat bound := by
  rw [clampPixLen, BitVec.toNat_ofNat]
  exact Nat.mod_eq_of_lt ((Nat.min_le_left _ _).trans_lt v.isLt)

/-- Settles O37: the read after the write returns what the write left in the register. -/
theorem writtenRegistersReadBack : Obligations.WrittenRegistersReadBack := by
  intro s v rest hs
  refine ⟨fun offset field bits hmem hh => ?_, fun hh => ?_⟩
  · obtain ⟨-, hcmd, hlt⟩ := regAt_of_mem hmem
    have hfield := holdsField_of_mem hmem
    obtain ⟨hwrite, hread⟩ := step_write_read hs hh hcmd hlt (hfield.read_write_same v _)
    exact ⟨_, hwrite, hfield.write_same v _, hread⟩
  · obtain ⟨hwrite, hread⟩ := step_write_read hs hh nofun (by decide) rfl
    exact ⟨_, hwrite, clampPixLen_toNat s.params.pixmemBytes v, hread⟩

/-! ## All that a host reads (O36) -/

/-- `CMD` and what reaches no register read 0, and neither read is U4's (R244, R64). -/
theorem readsZero_of_unlisted {offset : Nat} {width : AccessWidth} {s : State}
    (h : width ≠ .word ∨ offset % 4 ≠ 0 ∨ 0x90 ≤ offset ∨ offset = 0x5C ∨ offset = 0x00) :
    readsUnwritten (regOf offset width) s = false ∧ readReg (regOf offset width) s = 0 := by
  have hreg : regOf offset width = .reserved ∨ regOf offset width = .cmd := by
    by_cases hcmd : offset = 0x00 ∧ width = .word
    · obtain ⟨rfl, rfl⟩ := hcmd
      exact .inr rfl
    · exact .inl (regOf_of_unlisted (by tauto))
  obtain hreg | hreg := hreg <;> rw [hreg] <;> exact ⟨rfl, rfl⟩

/-- A word of a FREQ window shows the value of its register, and its read is U4's until a `MAP_*` has written it (R38,
R64). -/
theorem freqWindow_of_mem {s : State} {base k : Nat} {reg : FreqReg} (hk : k < 4)
    (h : (base, reg) ∈ [(0x60, s.freq0), (0x70, s.freq1), (0x80, s.freq2)]) :
    readReg (regAt (base + 4 * k)) s = freqWord s.params.num reg k ∧
      readsUnwritten (regAt (base + 4 * k)) s = !reg.written := by
  simp only [List.mem_cons, Prod.mk.injEq, List.not_mem_nil, or_false] at h
  obtain ⟨rfl, rfl⟩ | ⟨rfl, rfl⟩ | ⟨rfl, rfl⟩ := h <;> interval_cases k <;> exact ⟨rfl, rfl⟩

/-- A read of a record is the host's whole turn (R246). -/
theorem step_readLive {s : State} {k : Nat} {rest : List HostMove} (hh : s.host = .readLive k :: rest) :
    step s = .next { s with host := rest, hostData := (s.outLive[k]?).elim .nothing .record } := by
  rw [step, turn, hh]
  rfl

/-- A read of a sample is the host's whole turn (R246). -/
theorem step_readPcm {s : State} {k : Nat} {rest : List HostMove} (hh : s.host = .readPcm k :: rest) :
    step s = .next { s with host := rest, hostData := ((visiblePcm s)[k]?).elim .nothing .sample } := by
  rw [step, turn, hh]
  rfl

/-- While `BUSY` a host sees no sample at or above `N` (R306). -/
theorem visiblePcm_getElem? (s : State) (k : Nat) :
    (visiblePcm s)[k]? = if s.status = .busy ∧ s.n ≤ k then none else s.outPcm[k]? := by
  unfold visiblePcm
  by_cases hs : s.status = .busy
  · rw [if_pos hs, List.getElem?_take]
    by_cases hk : k < s.n
    · simp [hk]
    · simp [hk, hs, Nat.le_of_not_lt hk]
  · simp [hs]

/-- Settles O36: the unlisted offsets, the words of the map, the FREQ windows, then the two outputs. -/
theorem hostReadsReturnTheField : Obligations.HostReadsReturnTheField := by
  refine ⟨fun s offset width rest hh => ⟨fun h => ?_, fun hw field hmem => ?_, fun hw k hk base reg hmem ho => ?_⟩,
    fun s k rest hh => ?_, fun s k rest hh => ?_⟩
  · obtain ⟨hu, hw⟩ := readsZero_of_unlisted (s := s) h
    exact step_read_word hh hu hw
  · subst hw
    exact step_read_word hh (readsUnwritten_of_lt (offset_lt_of_mem hmem) _ s) (readReg_of_mem hmem s)
  · subst hw ho
    obtain ⟨hread, hwritten⟩ := freqWindow_of_mem hk hmem
    exact ⟨fun h => step_read_word hh (hwritten.trans (congrArg not h)) hread,
      fun h => step_read_unwritten hh (hwritten.trans (congrArg not h)) hread⟩
  · exact ⟨fun r hr => by rw [step_readLive hh, hr]; rfl,
      fun hk => by rw [step_readLive hh, List.getElem?_eq_none hk]; rfl⟩
  · refine ⟨fun a ha hvis => ?_, fun hno => ?_⟩
    · rw [step_readPcm hh, visiblePcm_getElem?, if_neg fun ⟨hb, hn⟩ => hvis.elim (absurd hb) hn.not_gt, ha]
      rfl
    · have hnone : (visiblePcm s)[k]? = none := by
        rw [visiblePcm_getElem?, ite_eq_left_iff]
        exact fun hn => List.getElem?_eq_none (hno.resolve_right hn)
      rw [step_readPcm hh, hnone]
      rfl

end Sys2Proof.Machine

namespace Sys2Proof.Machine

/-! ## The container, outside the block (R260 to R263) -/

/-- The value of bytes that stand low byte first (R261). -/
def leValue (bytes : List Byte) : Nat := bytes.foldr (fun b acc => b.toNat + 256 * acc) 0

@[simp] theorem bytesLE_length (k v : Nat) : (bytesLE k v).length = k := by simp [bytesLE]

theorem bytesLE_getElem? {k j : Nat} (hj : j < k) (v : Nat) :
    (bytesLE k v)[j]? = some (BitVec.ofNat 8 (v / 256 ^ j)) := by
  simp [bytesLE, List.getElem?_range hj]

theorem bytesLE_succ (k v : Nat) : bytesLE (k + 1) v = BitVec.ofNat 8 v :: bytesLE k (v / 256) := by
  simp [bytesLE, List.range_succ_eq_map, Nat.pow_succ', Nat.div_div_eq_div_mul]

/-- A field keeps its value's low bytes. -/
theorem leValue_bytesLE (k v : Nat) : leValue (bytesLE k v) = v % 256 ^ k := by
  induction k generalizing v with
  | zero => exact (Nat.mod_one v).symm
  | succ k ih =>
    calc leValue (bytesLE (k + 1) v)
        = v % 256 + 256 * leValue (bytesLE k (v / 256)) := by rw [bytesLE_succ]; simp [leValue]
      _ = v % 256 ^ (k + 1) := by rw [ih, Nat.pow_succ', Nat.mod_mul]

theorem wavHeader_length (ch sr n : Nat) : (wavHeader ch sr n).length = 44 := rfl

theorem wavSample_length (channels : List (List Amp)) (i c : Nat) : (wavSample channels i c).length = 2 :=
  bytesLE_length 2 _

theorem wavFrame_length (channels : List (List Amp)) (i : Nat) :
    ((List.range channels.length).flatMap (wavSample channels i)).length = 2 * channels.length :=
  length_flatMap_range _ (wavSample_length channels i)

theorem wav_length (sr n : Nat) (channels : List (List Amp)) :
    (wav sr n channels).length = 44 + n * channels.length * 2 := by
  rw [wav, List.length_append, wavHeader_length, length_flatMap_range n (wavFrame_length channels)]
  ring

/-- The container's tag (R261). -/
theorem wav_take_four (sr n : Nat) (channels : List (List Amp)) : (wav sr n channels).take 4 = tagRiff := rfl

/-- The length of what follows the first two fields (R261). -/
theorem leValue_wav_riffLength (sr n : Nat) (channels : List (List Amp))
    (hfit : 44 + n * channels.length * 2 < 2 ^ 32) :
    leValue (((wav sr n channels).drop 4).take 4) = (wav sr n channels).length - 8 :=
  calc leValue (((wav sr n channels).drop 4).take 4)
      = (44 + n * channels.length * 2 - 8) % 256 ^ 4 := leValue_bytesLE 4 _
    _ = (wav sr n channels).length - 8 := by rw [wav_length, Nat.mod_eq_of_lt (by omega)]

/-- The length of the sample data (R261). -/
theorem leValue_wav_dataLength (sr n : Nat) (channels : List (List Amp))
    (hfit : 44 + n * channels.length * 2 < 2 ^ 32) :
    leValue (((wav sr n channels).drop 40).take 4) = (wav sr n channels).length - 44 :=
  calc leValue (((wav sr n channels).drop 40).take 4)
      = n * channels.length * 2 % 256 ^ 4 := leValue_bytesLE 4 _
    _ = (wav sr n channels).length - 44 := by rw [wav_length, Nat.mod_eq_of_lt (by omega), Nat.add_sub_cancel_left]

/-- In a concatenation of blocks of `k` items, item `j` of block `l` stands at `k * l + j`. -/
theorem getElem?_flatMap_range {α : Type} {f : Nat → List α} {k n l j : Nat} (hf : ∀ i, (f i).length = k) (hl : l < n)
    (hj : j < k) : ((List.range n).flatMap f)[k * l + j]? = (f l)[j]? := by
  rw [← take_drop_flatMap_range hf hl, List.getElem?_take_of_lt hj, List.getElem?_drop]

/-- The samples are interleaved: all channels of a sample, then those of the next (R262). -/
theorem wav_getElem? (sr : Nat) {n i c b : Nat} {channels : List (List Amp)} (hi : i < n) (hc : c < channels.length)
    (hb : b < 2) :
    (wav sr n channels)[44 + (i * channels.length + c) * 2 + b]? = (wavSample channels i c)[b]? := by
  have hplace : 2 * c + b < 2 * channels.length := by omega
  have hindex : 44 + (i * channels.length + c) * 2 + b
      = (wavHeader channels.length sr n).length + (2 * channels.length * i + (2 * c + b)) := by
    rw [wavHeader_length]
    ring
  rw [hindex, wav, List.getElem?_append_right (Nat.le_add_right _ _), Nat.add_sub_cancel_left,
    getElem?_flatMap_range (wavFrame_length channels) hi hplace,
    getElem?_flatMap_range (wavSample_length channels i) hc hb]

/-- R263's formula before the rounding, with its clamp. -/
noncomputable def codeLevel (x : ℝ) : ℝ := (1 / 2 + 1 / 2 * max (-1) (min 1 x)) * 65535

theorem codeLevel_of_mem {x : ℝ} (hlo : -1 ≤ x) (hhi : x ≤ 1) : codeLevel x = (1 / 2 + 1 / 2 * x) * 65535 := by
  rw [codeLevel, min_eq_right hhi, max_eq_right hlo]

theorem codeLevel_of_le_neg_one {x : ℝ} (h : x ≤ -1) : codeLevel x = 0 := by
  rw [codeLevel, min_eq_right (by linarith), max_eq_left h]
  norm_num

theorem codeLevel_of_one_le {x : ℝ} (h : 1 ≤ x) : codeLevel x = 65535 := by
  rw [codeLevel, min_eq_left h]
  norm_num

theorem codeLevel_range (x : ℝ) : 0 ≤ codeLevel x ∧ codeLevel x ≤ 65535 := by
  have hlo : -1 ≤ max (-1) (min 1 x) := le_max_left _ _
  have hhi : max (-1) (min 1 x) ≤ 1 := max_le (by norm_num) (min_le_left _ _)
  constructor <;> unfold codeLevel <;> linarith

/-- The code rounds the level to the nearest integer, halves up, whichever datum the amplitude is (R263). -/
theorem quantize_eq_floor {a : Amp} {x : ℝ} (h : ampIs a x) : quantize a = ⌊codeLevel x + 1 / 2⌋₊ := by
  cases a with
  | value r =>
    obtain rfl : x = r := h
    have hcast : codeLevel r + 1 / 2 = (((1 / 2 + 1 / 2 * clampUnit r) * 65535 + 1 / 2 : Rat) : ℝ) := by
      simp [codeLevel, clampUnit]
    rw [hcast, ← Int.floor_toNat, Rat.floor_cast]
    rfl
  | sine q =>
    obtain rfl : x = Real.sin (2 * Real.pi * q) := h
    rw [codeLevel_of_mem (Real.neg_one_le_sin _) (Real.sin_le_one _)]
    rfl

theorem quantize_eq_iff {a : Amp} {x : ℝ} (h : ampIs a x) (k : Nat) :
    quantize a = k ↔ (k : ℝ) - 1 / 2 ≤ codeLevel x ∧ codeLevel x < k + 1 / 2 := by
  obtain ⟨hpos, -⟩ := codeLevel_range x
  rw [quantize_eq_floor h, Nat.floor_eq_iff (by linarith)]
  constructor <;> rintro ⟨hle, hlt⟩ <;> constructor <;> linarith

/-- Every code fits 16 bits (R263). -/
theorem quantize_le {a : Amp} {x : ℝ} (h : ampIs a x) : quantize a ≤ 65535 := by
  obtain ⟨-, hmax⟩ := codeLevel_range x
  rw [quantize_eq_floor h]
  exact Nat.le_of_lt_succ (Nat.floor_lt' (by decide) |>.mpr (by push_cast; linarith))

/-- An amplitude stands for some real number. -/
theorem exists_ampIs (a : Amp) : ∃ x, ampIs a x := by
  cases a with
  | value r => exact ⟨r, rfl⟩
  | sine q => exact ⟨_, rfl⟩

/-- Two bytes hold a 16-bit value whole. -/
theorem bytesLE_two_toNat {v : Nat} (hv : v ≤ 65535) :
    ((bytesLE 2 v)[0]?).map BitVec.toNat = some (v % 256) ∧ ((bytesLE 2 v)[1]?).map BitVec.toNat = some (v / 256) := by
  have hhigh : v / 256 < 256 := by omega
  rw [bytesLE_getElem? (by decide), bytesLE_getElem? (by decide)]
  simp [Nat.mod_eq_of_lt hhigh]

/-- The two bytes of a sample are its whole code, low byte first (R262, R263). -/
theorem wavSample_bytes (channels : List (List Amp)) (i c : Nat) :
    ((wavSample channels i c)[0]?).map BitVec.toNat
        = some (quantize ((channels.getD c []).getD i (.value 0)) % 256) ∧
      ((wavSample channels i c)[1]?).map BitVec.toNat
        = some (quantize ((channels.getD c []).getD i (.value 0)) / 256) := by
  obtain ⟨x, hx⟩ := exists_ampIs ((channels.getD c []).getD i (.value 0))
  exact bytesLE_two_toNat (quantize_le hx)

/-- Settles O60: the header's fields by their places, a sample's bytes by its frame and channel, and the code by the
level that it rounds. -/
theorem containerLayoutAndQuantization : Obligations.ContainerLayoutAndQuantization := by
  refine ⟨fun rate n channels hfit => ?_, fun a x hx => ⟨quantize_le hx, fun hlo hhi => ?_, fun h => ?_, fun h => ?_⟩⟩
  · refine ⟨wav_length rate n channels, wav_take_four rate n channels, leValue_wav_riffLength rate n channels hfit,
      leValue_wav_dataLength rate n channels hfit, fun i hi c hc => ?_⟩
    have hlow := wav_getElem? rate hi hc (b := 0) (by decide)
    have hhigh := wav_getElem? rate hi hc (b := 1) (by decide)
    rw [Nat.add_zero] at hlow
    rw [hlow, hhigh]
    exact wavSample_bytes channels i c
  · rw [← codeLevel_of_mem hlo hhi]
    exact (quantize_eq_iff hx _).mp rfl
  · rw [quantize_eq_iff hx, codeLevel_of_le_neg_one h]
    norm_num
  · rw [quantize_eq_iff hx, codeLevel_of_one_le h]
    norm_num

end Sys2Proof.Machine

namespace Sys2Proof.Machine

open Sys2Proof.Claims

/-! ## The errors of an image command in their order (O18) -/

/-- The tags that select no family are those outside 1 to 4 (R93). -/
theorem familyOf_eq_none_iff (tag : BitVec 3) : familyOf tag = none ↔ ¬ (1 ≤ tag.toNat ∧ tag.toNat ≤ 4) := by
  unfold familyOf
  split
  case h_5 h1 h2 h3 h4 =>
    rw [eq_self, true_iff]
    rintro ⟨hlo, hhi⟩
    interval_cases tag.toNat <;> contradiction
  all_goals simp_all

/-- The checks of an image command as R277 lists them, on the numbers in the registers: the first that fails decides. -/
theorem encodeError_eq {c : EncCmd} (hc : c ≠ .hdr) (s : State) :
    encodeError c s =
      if ¬ (1 ≤ s.family.toNat ∧ s.family.toNat ≤ 4) then some .unsupportedFormatOperation
      else if ¬ (s.numLines.toNat ≠ 0 ∧ s.hPixels.toNat ≠ 0 ∧ s.tScan.toNat ≠ 0) then some .invalidParameter
      else if ¬ (s.family.toNat = 3 → s.numLines.toNat % 2 = 0) then some .invalidParameter
      else if ¬ (c = .pcm → s.sampleRate.toNat ≠ 0) then some .invalidParameter
      else if s.pixLen.toNat < 4 * s.numLines.toNat * s.hPixels.toNat then some .inputSizeMismatch
      else none := by
  have hsizes : (s.numLines = 0 ∨ s.hPixels = 0 ∨ s.tScan = 0) ↔
      ¬ (s.numLines.toNat ≠ 0 ∧ s.hPixels.toNat ≠ 0 ∧ s.tScan.toNat ≠ 0) := by
    simp only [← BitVec.toNat_inj, BitVec.ofNat_eq_ofNat, BitVec.toNat_ofNat, Nat.zero_mod]
    tauto
  have hpaired : (familyOf s.family = some .pd ∧ s.numLines.toNat % 2 = 1) ↔
      ¬ (s.family.toNat = 3 → s.numLines.toNat % 2 = 0) := by
    rw [familyOf_eq_some_iff, Classical.not_imp, Nat.mod_two_not_eq_zero]
  have hrated : (c = .pcm ∧ s.sampleRate = 0) ↔ ¬ (c = .pcm → s.sampleRate.toNat ≠ 0) := by
    rw [Classical.not_imp, not_not, ← BitVec.toNat_inj]
    rfl
  unfold encodeError
  split
  · contradiction
  · simp only [familyOf_eq_none_iff, hsizes, hpaired, hrated]

/-- In the atomic view a check that fails ends the command at once, and the error alone is left of it (R274, R277). -/
theorem exec_encodeInstr_of_encodeError {c : EncCmd} {s : State} {e : ErrCode} (hs : s.status ≠ .busy)
    (hv : s.view = .atomic) (he : encodeError c s = some e) :
    exec (encodeInstr c) s = .next { cleared .error e s with running := c, phase := .checks } := by
  have haccepted : encodeError (acceptEncode c s).running (acceptEncode c s) = some e := he
  rw [exec_encodeInstr_atomic c s hs hv, checkAndBuild, haccepted]
  rfl

/-- Settles O18: where a check fails after those before it have passed, `encodeError` reports its code, and the command
leaves that error. -/
theorem encodeErrorsInOrder : Obligations.EncodeErrorsInOrder := by
  intro s i c hi hs hv
  obtain ⟨hc, rfl⟩ : c ≠ .hdr ∧ i = encodeInstr c := by
    obtain ⟨rfl, rfl⟩ | ⟨rfl, rfl⟩ := hi
    · exact ⟨nofun, rfl⟩
    · exact ⟨nofun, rfl⟩
  have hfails {e : ErrCode} := exec_encodeInstr_of_encodeError (c := c) (e := e) hs hv
  rw [encodeError_eq hc] at hfails
  refine ⟨fun hunknown => hfails ?_, fun hknown hsizes => hfails ?_, fun hknown hsizes hpaired => hfails ?_,
    fun hknown hsizes hpaired hrated => hfails ?_, fun hknown hsizes hpaired hrated hshort => hfails ?_⟩
  · rw [if_pos hunknown]
  · rw [if_neg (not_not_intro hknown), if_pos hsizes]
  · rw [if_neg (not_not_intro hknown), if_neg (not_not_intro hsizes), if_pos hpaired]
  · rw [if_neg (not_not_intro hknown), if_neg (not_not_intro hsizes), if_neg (not_not_intro hpaired), if_pos hrated]
  · rw [if_neg (not_not_intro hknown), if_neg (not_not_intro hsizes), if_neg (not_not_intro hpaired),
      if_neg (not_not_intro hrated), if_pos hshort]

end Sys2Proof.Machine

namespace Sys2Proof.Machine

open Sys2Proof.Claims

/-! ## The host while `BUSY` (O35) -/

/-- A command is ignored while `BUSY`, whatever its body (R240). -/
theorem exec_command_of_busy {i : Instr} {s : State} (hi : isCommand i) (hs : s.status = .busy) :
    exec i s = .next s := by
  have hignored (f : State → Host.Outcome State Fault Refusal) : runCommand f s = .next s := if_pos hs
  obtain rfl | rfl | rfl | rfl | rfl | rfl | rfl := hi
  · exact hignored fun a => .next (flagsIdle a)
  · exact hignored (mapPixel writeGrey)
  · exact hignored (mapPixel writeRgb)
  · exact hignored (mapPixel writeYc)
  · exact hignored (encodeBody .hdr)
  · exact hignored (encodeBody .live)
  · exact hignored (encodeBody .pcm)

/-- A write to `REG` or to `PIX` is dropped while `BUSY`; the host has had its turn (R306). -/
theorem step_write_of_busy {s : State} {m : HostMove} {rest : List HostMove} (hs : s.status = .busy)
    (hh : s.host = m :: rest) (hm : isWrite m = true) : step s = .next { s with host := rest } := by
  cases m with
  | write offset width v =>
    rw [step, turn, hh]
    exact if_pos hs
  | pixels addr bytes => rw [step_pixels hh, hostPixels, if_pos hs]
  | _ => contradiction

/-- Settles O35: a write is dropped before it is looked at, and a command before its body runs. -/
theorem busyDropsHostWrites : Obligations.BusyDropsHostWrites :=
  fun _ hs => ⟨fun _ _ hh hm => step_write_of_busy hs hh hm, fun _ hi => exec_command_of_busy hi hs⟩

/-! ## The first command after reset (O42) -/

/-- The start time is 0 straight after reset (R29, R49). -/
theorem startTime_resetWith (p : Params) : startTime (State.resetWith p) = 0 := by
  simp [startTime, State.resetWith, Block.reset]

/-- `CLEAR` straight after reset leaves the reset values (R241, R302). -/
theorem exec_clear_resetWith (p : Params) : exec .clear (State.resetWith p) = .next (State.resetWith p) := by
  have hcleared : cleared .idle .none (State.resetWith p) =
      { State.resetWith p with tAcc := startTime (State.resetWith p) } := rfl
  rw [clearLeavesIdle.2 (State.resetWith p) nofun, hcleared, startTime_resetWith]
  rfl

/-- No pixel is in bounds straight after reset: `PIX_LEN` is 0 (R49, R302). -/
theorem runCommand_mapPixel_resetWith (w : Nat → Nat → Nat → State → State) (p : Params) :
    runCommand (mapPixel w) (State.resetWith p) = .next (cleared .error .inputSizeMismatch (State.resetWith p)) :=
  runCommand_mapPixel_outOfBounds w nofun (Nat.zero_le _)

/-- Settles O42: `CLEAR` and `ENC_HDR` check nothing; the others meet no family, or no pixel. -/
theorem firstCommandAfterReset : Obligations.FirstCommandAfterReset := by
  intro p
  refine ⟨exec_clear_resetWith p, ?_, ?_, ?_⟩
  · refine ⟨_, exec_encHdr_atomic nofun rfl, projectAndEnd_status _, ?_⟩
    rw [projectAndEnd_builtHeader_outLive, startTime_resetWith]
    rfl
  · rintro i (rfl | rfl)
    · exact ⟨_, exec_encode_resetWith p .live nofun, rfl, rfl⟩
    · exact ⟨_, exec_encode_resetWith p .pcm nofun, rfl, rfl⟩
  · rintro i (rfl | rfl | rfl)
    · exact ⟨_, runCommand_mapPixel_resetWith writeGrey p, rfl, rfl⟩
    · exact ⟨_, runCommand_mapPixel_resetWith writeRgb p, rfl, rfl⟩
    · exact ⟨_, runCommand_mapPixel_resetWith writeYc p, rfl, rfl⟩

/-! ## The reset input and the idle block (O43) -/

/-- The reset input is the host's whole turn, whatever the block is doing (R300). -/
theorem step_reset {s : State} {rest : List HostMove} (hh : s.host = .reset :: rest) :
    step s = .next (resetBlock { s with host := rest }) := by
  rw [step, turn, hh]
  rfl

/-- The engine does nothing unless a command is running (R301). -/
theorem engineTurn_of_not_busy {s : State} (hs : s.status ≠ .busy) : engineTurn s = .next s := by
  unfold engineTurn
  split
  case h_4 hbusy => exact absurd hbusy hs
  all_goals rfl

/-- Settles O43: the move is `resetBlock`; with no move the turn is the engine's, which has no command to run. -/
theorem resetInputAndIdleBlock : Obligations.ResetInputAndIdleBlock := by
  intro s
  refine ⟨fun rest hh => step_reset hh, fun hs hh => ?_⟩
  rw [step, turn, hh]
  exact engineTurn_of_not_busy hs

end Sys2Proof.Machine
